-- ==== Sys2Proof/Word.lean ====
section
/-! DEFINITION. The word types of the Fortak 740: what its manual treats as bits of a fixed width. -/

namespace Sys2Proof

/-- One octet of the Section Line or of the Cell Port. -/
abbrev Byte := BitVec 8

/-- A line time or a stamp: a 32-bit count of microseconds that wraps (0.5.3, R20). -/
abbrev LineTime := BitVec 32

/-- An index number: 16 bits, wrapping, compared for equality only (0.5.3, R36). -/
abbrev IndexNo := BitVec 16

end Sys2Proof
end

