-- ==== Sys2Proof/Config.lean ====
section
/-! DEFINITION. Fixed numbers of the manual, and the one value it leaves open. Times are in microseconds. -/

namespace Sys2Proof.Config

/-- R180: a RESET pulse shorter than 10 µs either resets the part in full or is ignored; the manual does not say which.
The model asks this constant, which has no body, once for each short pulse (assumption 4). -/
opaque shortPulseResets : Nat → Bool

/-- R21: distance of two beat boundaries. -/
def beatSpacing : Nat := 50000
/-- R21: the last beat boundary before the wrap of line time. -/
def lastBeatBoundary : Nat := 4294950000
/-- R26: bound of a clamped correction, in µs. -/
def correctionClamp : Int := 25
/-- 2.5, R28: the fine window, in µs. -/
def fineWindow : Int := 25
/-- 2.5, R28: the coarse window, in µs. -/
def coarseWindow : Int := 250
/-- R28: a run stops increasing here. -/
def runLimit : Nat := 255
/-- R29: coarse run needed for COARSE and for FINE. -/
def coarseRunNeeded : Nat := 16
/-- R29: fine run needed for FINE. -/
def fineRunNeeded : Nat := 32
/-- R32: a silence count stops increasing at 65,535 ms. -/
def silenceLimit : Nat := 65535000
/-- R32: a member is silent from 150 ms on. -/
def silentFrom : Nat := 150000
/-- R15: the foreign-frame timer. -/
def foreignTime : Nat := 1000000
/-- R6: marked attempts after which a frame is removed. -/
def repeatLimit : Nat := 16
/-- R48: distance from the rounded stamp to the origin. -/
def originLead : Nat := 4000
/-- R56: distance from the stop stamp to the earliest ramp start. -/
def stopLead : Nat := 2000
/-- R71, R73: one period. -/
def period : Nat := 1000
/-- R58: the in-position wait. -/
def inPositionTime : Nat := 250000
/-- R88: the homing timer. -/
def homingTime : Nat := 30000000
/-- R90: the home check timer. -/
def homeCheckTime : Nat := 500000
/-- R89: the way off the home cam, in µm. -/
def homeCamTravel : Int := 20000
/-- R93: the time one setpoint word occupies the line. -/
def wordTime : Nat := 40
/-- R93: the longest time without a setpoint word, counted from the start of the last one (DEDUCED, assumption 34). -/
def wordRepeat : Nat := 1000
/-- R97: the encoder at rest. -/
def encoderRest : Nat := 50000
/-- R167: the JOIN repetition. -/
def joinRepeat : Nat := 500000
/-- R132: the exit queue holds at most this many records. -/
def exitCapacity : Nat := 4
/-- R104, R178: distance of two samples of the inputs. -/
def sampleSpacing : Nat := 1000
/-- R104, R178: equal samples in a row that take a new value. -/
def samplesTaken : Nat := 3
/-- R119: an operation list holds at most this many entries. -/
def opsCapacity : Nat := 16

/-- Table 6-4: the settle counter, in ms, at which mark `k` (1 to 7) is set. -/
def settleThreshold (k : Nat) : Nat := 8 * 2 ^ k

/-- R162: a configured timeout of `ms` runs for its value rounded up to a multiple of 10 ms; here in µs. -/
def timeout (ms : Nat) : Nat := (ms + 9) / 10 * 10 * 1000

end Sys2Proof.Config
end

