-- ==== Sys2Proof/Syntax.lean ====
section
/-! DEFINITION. The commands of the 740: one constructor of `Instr` for each row of spec/opcode_table.json, and the data
its operands are made of (frames, pallet records, configuration items, enumerations). -/

namespace Sys2Proof

/-- Table 1-1: the ten kinds of frame. -/
inductive FrameKind where
  | stop | lifted | lowered | resume | ready | hold | handover | position | beat | join
  deriving DecidableEq, Repr

/-- Table 7-2: a verdict, from better to worse (R118). -/
inductive Verdict where
  | good | suspect | reject
  deriving DecidableEq, Repr

/-- Table 1-6: a machining result. -/
inductive MachResult where
  | ok | suspect | failed | skipped
  deriving DecidableEq, Repr

/-- Table 1-6: the Record Store's knowledge of the fixture. -/
inductive FixtureStatus where
  | empty | held | unknown
  deriving DecidableEq, Repr

/-- Table 1-6: a profile kind as a POSITION frame carries it. -/
inductive ProfileCode where
  | forward | resume | ret | reposition
  deriving DecidableEq, Repr

/-- Table 1-6: the step state. -/
inductive StepState where
  | none | coarse | fine
  deriving DecidableEq, Repr

/-- R180: what began the last reset. -/
inductive ResetCause where
  | powerOn | resetInput
  deriving DecidableEq, Repr

/-- R119: one entry of an operation list. -/
structure OpEntry where
  station : Nat
  result : MachResult
  deriving DecidableEq, Repr

/-- Table 7-2: a pallet record. `serial` holds the 12 decimal digits, earliest first; `ops` the entries, oldest first. -/
structure PalletRecord where
  id : Nat
  variant : Nat
  serial : List Nat
  verdict : Verdict
  truncated : Bool
  ops : List OpEntry
  deriving DecidableEq, Repr

/-- Table 1-5, JOIN: the fields of a JOIN frame. -/
structure JoinFields where
  pitch : Nat
  vmax : Nat
  accel : Nat
  stopDecel : Nat
  members : Nat
  index : IndexNo
  forming : Bool
  level : Nat
  cause : Nat
  deriving DecidableEq, Repr

/-- Table 1-5, POSITION: the fields of a POSITION frame. -/
structure PositionFields where
  index : IndexNo
  kind : ProfileCode
  period : Nat
  offset : Int
  error : Int
  saturated : Bool
  deriving DecidableEq, Repr

/-- Table 1-5, READY: the fields of a READY frame. -/
structure ReadyFields where
  index : IndexNo
  pallet : Nat
  variant : Nat
  verdict : Verdict
  status : FixtureStatus
  deriving DecidableEq, Repr

/-- Table 1-5: the payload of a frame. The content of a HANDOVER is a pallet record or, as `none`, the empty marker. -/
inductive Payload where
  | stop (index : IndexNo) (cause level : Nat)
  | lifted (index : IndexNo)
  | lowered (index : IndexNo)
  | resume (index : IndexNo) (stopSetpoint : Nat)
  | ready (fields : ReadyFields)
  | hold (level cause : Nat)
  | handover (index : IndexNo) (content : Option PalletRecord)
  | position (fields : PositionFields)
  | beat (step : StepState)
  | join (fields : JoinFields)
  deriving DecidableEq, Repr

/-- Table 1-4: what a frame carries beside its payload and its kind. -/
structure Header where
  sectionId : Nat
  sender : Nat
  stamp : LineTime
  deriving DecidableEq, Repr

/-- One frame of the Section Line. -/
structure Frame where
  header : Header
  payload : Payload
  deriving DecidableEq, Repr

/-- Table 11-6: a configuration item and the value SET_ITEM carries for it, in the widths of the Cell Port. An item name that
is not one of Table 10-1 is `unknown`, with the octets after it. -/
inductive ItemWrite where
  | stationNumber (v : Byte)
  | sectionId (v : Byte)
  | members (v : List Byte)
  | pitch (v : BitVec 32)
  | vmax (v : BitVec 16)
  | accel (v : BitVec 16)
  | stopDecel (v : BitVec 16)
  | homingSpeed (v : Byte)
  | followLimit (v : BitVec 16)
  | inposWindow (v : BitVec 16)
  | settleStage (v : Byte)
  | releaseStepTimeout (v : BitVec 16)
  | locateTimeout (v : BitVec 16)
  | clampTimeout (v : BitVec 16)
  | liftBarrierTimeout (v : BitVec 16)
  | lowerTimeout (v : BitVec 16)
  | causeLevel (cause level : Byte)
  | unknown (name : Byte) (value : List Byte)
  deriving DecidableEq, Repr

/-- The commands and events of the 740, one constructor for each row of spec/opcode_table.json, in the table's order.
Operands stand for what the pins and the ports carry (assumption 1); what has no row is left out or stands in these (assumptions 13
and 30). -/
inductive Instr where
  /-- SET_ITEM (R161). -/
  | setItem (item : ItemWrite)
  /-- JOIN (R163). -/
  | join
  /-- GET_STATUS (R175). -/
  | getStatus
  /-- GET_CAUSES (R159). -/
  | getCauses
  /-- CLEAR_CAUSE (R151): the cause number. -/
  | clearCause (cause : Byte)
  /-- SET_ATTN_MASK (R158): the mask. -/
  | setAttnMask (mask : Byte)
  /-- REPORT_RESULT (R121): the result code. -/
  | reportResult (code : Byte)
  /-- LOAD_ENTRY (R129): the octets of the pallet record. -/
  | loadEntry (octets : List Byte)
  /-- LOAD_FIXTURE (R130): the octets of the pallet record. -/
  | loadFixture (octets : List Byte)
  /-- DECLARE_EMPTY (R131). -/
  | declareEmpty
  /-- GET_FIXTURE_RECORD (R135). -/
  | getFixtureRecord
  /-- GET_INCOMING (R135). -/
  | getIncoming
  /-- TAKE_EXIT_RECORD (R133). -/
  | takeExitRecord
  /-- GET_IMAGE (R144). -/
  | getImage
  /-- GET_PEER (R176): the station number. -/
  | getPeer (station : Byte)
  /-- RESUME (R63). -/
  | resume
  /-- MALFORMED_REQUEST (R173): the kind octet as received. -/
  | malformedRequest (kind : Byte)
  /-- NONE_TRANSACTION (R174): the number of octets shifted. -/
  | noneTransaction (octets : Nat)
  /-- RESET (R180): what began it, and whether it was a RESET pulse shorter than 10 µs. -/
  | reset (cause : ResetCause) (shortPulse : Bool)
  /-- LINK_IDLE_SEEN (R1). -/
  | linkIdleSeen
  /-- FRAME_START (R1): whether the station itself starts a frame from its queue. -/
  | frameStart (own : Bool)
  /-- ARBITRATION_LOST (R2). -/
  | arbitrationLost
  /-- FRAME_MARKED (R5). -/
  | frameMarked
  /-- FOREIGN_FRAME_OBSERVED (R14). -/
  | foreignFrameObserved (frame : Frame)
  /-- BEAT_OBSERVED (R24). -/
  | beatObserved (header : Header) (step : StepState)
  /-- JOIN_OBSERVED (R169). -/
  | joinObserved (header : Header) (fields : JoinFields)
  /-- READY_OBSERVED (R37). -/
  | readyObserved (header : Header) (fields : ReadyFields)
  /-- LIFTED_OBSERVED (R39). -/
  | liftedObserved (header : Header) (index : IndexNo)
  /-- LOWERED_OBSERVED (R41). -/
  | loweredObserved (header : Header) (index : IndexNo)
  /-- RESUME_OBSERVED (R40). -/
  | resumeObserved (header : Header) (index : IndexNo) (stopSetpoint : Nat)
  /-- STOP_OBSERVED (R56). -/
  | stopObserved (header : Header) (index : IndexNo) (cause level : Nat)
  /-- HOLD_OBSERVED (R154). -/
  | holdObserved (header : Header) (level cause : Nat)
  /-- POSITION_OBSERVED (R100). -/
  | positionObserved (header : Header) (fields : PositionFields)
  /-- HANDOVER_OBSERVED (R125). -/
  | handoverObserved (header : Header) (index : IndexNo) (content : Option PalletRecord)
  /-- FOREIGN_FRAME_TIMER_EXPIRY (R15). -/
  | foreignFrameTimerExpiry
  /-- BEAT_INSTANT (R22). -/
  | beatInstant
  /-- MEMBER_SILENT (R33): the member position, 1 to M. -/
  | memberSilent (position : Nat)
  /-- JOIN_REPETITION (R167). -/
  | joinRepetition
  /-- READY_OFFER (R42). -/
  | readyOffer
  /-- FORMING_EXIT (R171). -/
  | formingExit
  /-- HOMING_START (R88). -/
  | homingStart
  /-- LIFT_BARRIER_TIMER_EXPIRY (R49). -/
  | liftBarrierTimerExpiry
  /-- LOWERING_TIMER_EXPIRY (R58). -/
  | loweringTimerExpiry
  /-- UPSTREAM_TIMER_EXPIRY (R60). -/
  | upstreamTimerExpiry
  /-- HOMING_TIMER_EXPIRY (R89). -/
  | homingTimerExpiry
  /-- HOME_CHECK_TIMER_EXPIRY (R90). -/
  | homeCheckTimerExpiry
  /-- RELEASE_STEP_TIMER_EXPIRY (R108). -/
  | releaseStepTimerExpiry
  /-- LOCATE_TIMER_EXPIRY (R109). -/
  | locateTimerExpiry
  /-- CLAMP_TIMER_EXPIRY (R110). -/
  | clampTimerExpiry
  /-- SETTLE_MARK_SET (R111). -/
  | settleMarkSet
  /-- PROFILE_ORIGIN (R71). -/
  | profileOrigin
  /-- LOCAL_PROFILE_START (R73). -/
  | localProfileStart
  /-- PERIOD_END (R71). -/
  | periodEnd
  /-- SETPOINT_WORD_REPEAT (R93). -/
  | setpointWordRepeat
  /-- SETPOINT_WORD_END (R93). -/
  | setpointWordEnd
  /-- MACH_CLEAR_DROP (R44). -/
  | machClearDrop
  /-- EMERGENCY_ON (R150). -/
  | emergencyOn
  /-- DRIVE_FAULT_ON (R96). -/
  | driveFaultOn
  /-- CLAMP_PRESSURE_OFF (R113). -/
  | clampPressureOff
  /-- CLAMP_PRESSURE_MADE (R111). -/
  | clampPressureMade
  /-- LOCATORS_ENGAGED (R109): which of the two sensors are taken as on at this instant. -/
  | locatorsEngaged (first second : Bool)
  /-- LOCATOR_OFF (R112): the values of the two sensors as taken at this instant, at which one of them goes off. -/
  | locatorOff (first second : Bool)
  /-- PALLET_PRESENT_CHANGE (R104): the value taken. -/
  | palletPresentChange (present : Bool)
  /-- PLATE_CODE_CHANGE (R104): the code taken. -/
  | plateCodeChange (code : BitVec 10)
  /-- LIFT_UP_SENSOR_ON (R91). -/
  | liftUpSensorOn
  /-- LIFT_DOWN_SENSOR_ON (R91). -/
  | liftDownSensorOn
  /-- LIFT_SENSOR_OFF (R91): the lift-up sensor, or else the lift-down sensor. -/
  | liftSensorOff (up : Bool)
  /-- HOME_SENSOR_CHANGE (R88): the value taken. -/
  | homeSensorChange (on : Bool)
  /-- ENCODER_EDGE (R92): a count toward the downstream fixture, or else toward home. -/
  | encoderEdge (downstream : Bool)
  /-- MACH_CLEAR_ON (R178). -/
  | machClearOn
  /-- EMERGENCY_OFF (R150). -/
  | emergencyOff
  /-- DRIVE_FAULT_OFF (R96). -/
  | driveFaultOff
  /-- HOME_CAPTURE (R88): a sample first differs from the taken value, or else the samples return before three are counted. -/
  | homeCapture (differs : Bool)
  deriving DecidableEq, Repr

end Sys2Proof
end

