-- ==== Sys2Proof/Machine/Codec.lean ====
section
/-! DEFINITION. The encodings of the manual: the order of bits and octets, the check (R17), the enumerations (Table 1-6), the
pallet record (R19), the payloads and their ranges (R18), and the frame on the link with the tests an LPT makes on it (R4). -/

namespace Sys2Proof.Machine

/-! Integers and the check. -/

/-- R17: the `width` low bits of `n`, most significant first; `true` is a 1, sent recessive. -/
def natBits (width n : Nat) : List Bool :=
  match width with
  | 0 => []
  | w + 1 => natBits w (n / 2) ++ [n % 2 == 1]

/-- The number that bits spell, most significant first. -/
def bitsNat (bits : List Bool) : Nat :=
  bits.foldl (fun acc b => 2 * acc + b.toNat) 0

/-- R17, R177: `k` octets of `n`, most significant octet first. -/
def octets (k n : Nat) : List Byte :=
  match k with
  | 0 => []
  | k + 1 => octets k (n / 256) ++ [BitVec.ofNat 8 n]

/-- The number that octets spell, most significant octet first. -/
def octetsNat (os : List Byte) : Nat :=
  os.foldl (fun acc o => 256 * acc + o.toNat) 0

/-- R17: a signed integer in two's complement, in `k` octets. -/
def signedOctets (k : Nat) (v : Int) : List Byte :=
  octets k (v % (2 ^ (8 * k) : Int)).toNat

/-- R17: the signed integer that octets spell in two's complement. -/
def octetsInt (os : List Byte) : Int :=
  let n := octetsNat os
  if n < 2 ^ (8 * os.length - 1) then n else (n : Int) - 2 ^ (8 * os.length)

/-- The bits of octets, each octet most significant bit first. -/
def octetBits (os : List Byte) : List Bool :=
  os.flatMap fun o => natBits 8 o.toNat

/-- R17: one bit taken into the check of generator x^16 + x^12 + x^5 + 1. -/
def checkStep (c : BitVec 16) (b : Bool) : BitVec 16 :=
  if c.msb == b then c <<< 1 else (c <<< 1) ^^^ 0x1021#16

/-- R17: the 16-bit cyclic check over bits, initial value FFFFh, no final inversion. -/
def check (bits : List Bool) : BitVec 16 :=
  bits.foldl checkStep 0xFFFF#16

/-- R173, R177: the check over octets, as two octets. -/
def checkOctets (os : List Byte) : List Byte :=
  octets 2 (check (octetBits os)).toNat

/-- R177: a flag or an input is one octet. -/
def flagOctet (b : Bool) : Byte := if b then 1 else 0

/-- R177: a value that may be none is a presence octet, then the value when it is present. -/
def presence {α : Type} (f : α → List Byte) : Option α → List Byte
  | none => [0]
  | some a => 1 :: f a

/-! Enumerations (Table 1-1, Table 1-6). -/

end Sys2Proof.Machine

namespace Sys2Proof

/-- Table 1-1: the kind priority, 0 the highest. -/
def FrameKind.priority : FrameKind → Nat
  | .stop => 0 | .lifted => 1 | .lowered => 2 | .resume => 3 | .ready => 4
  | .hold => 5 | .handover => 6 | .position => 7 | .beat => 8 | .join => 9

/-- Table 1-1 read the other way: a priority of 10 or higher names no kind (R4). -/
def FrameKind.ofPriority : Nat → Option FrameKind
  | 0 => some .stop | 1 => some .lifted | 2 => some .lowered | 3 => some .resume | 4 => some .ready
  | 5 => some .hold | 6 => some .handover | 7 => some .position | 8 => some .beat | 9 => some .join
  | _ => none

/-- The kind of a payload. -/
def Payload.kind : Payload → FrameKind
  | .stop .. => .stop | .lifted .. => .lifted | .lowered .. => .lowered | .resume .. => .resume
  | .ready .. => .ready | .hold .. => .hold | .handover .. => .handover | .position .. => .position
  | .beat .. => .beat | .join .. => .join

/-- Table 1-6. -/
def Verdict.code : Verdict → Nat
  | .good => 0 | .suspect => 1 | .reject => 2

/-- Table 1-6. -/
def Verdict.ofCode : Nat → Option Verdict
  | 0 => some .good | 1 => some .suspect | 2 => some .reject | _ => none

/-- Table 1-6. -/
def MachResult.code : MachResult → Nat
  | .ok => 0 | .suspect => 1 | .failed => 2 | .skipped => 3

/-- Table 1-6. -/
def MachResult.ofCode : Nat → Option MachResult
  | 0 => some .ok | 1 => some .suspect | 2 => some .failed | 3 => some .skipped | _ => none

/-- Table 1-6. -/
def FixtureStatus.code : FixtureStatus → Nat
  | .empty => 0 | .held => 1 | .unknown => 2

/-- Table 1-6. -/
def FixtureStatus.ofCode : Nat → Option FixtureStatus
  | 0 => some .empty | 1 => some .held | 2 => some .unknown | _ => none

/-- Table 1-6. -/
def ProfileCode.code : ProfileCode → Nat
  | .forward => 0 | .resume => 1 | .ret => 2 | .reposition => 3

/-- Table 1-6. -/
def ProfileCode.ofCode : Nat → Option ProfileCode
  | 0 => some .forward | 1 => some .resume | 2 => some .ret | 3 => some .reposition | _ => none

/-- Table 1-6. -/
def StepState.code : StepState → Nat
  | .none => 0 | .coarse => 1 | .fine => 2

/-- Table 1-6. -/
def StepState.ofCode : Nat → Option StepState
  | 0 => some .none | 1 => some .coarse | 2 => some .fine | _ => none

/-- A flag octet of a frame is 0 or 1 (Table 1-5). -/
def boolOfCode : Nat → Option Bool
  | 0 => some false | 1 => some true | _ => none

end Sys2Proof

namespace Sys2Proof.Machine

/-! Verdicts and results (R118). -/

/-- R118: the worse of two verdicts. -/
def worseVerdict (a b : Verdict) : Verdict := if a.code < b.code then b else a

/-- Table 7-3: the verdict a result gives. -/
def resultVerdict : MachResult → Verdict
  | .ok => .good | .skipped => .good | .suspect => .suspect | .failed => .reject

/-! The pallet record (R19). -/

/-- R19: a record with a pallet id of 1 to 1023 whose fields are in their ranges. -/
def recordInRange (r : PalletRecord) : Bool :=
  decide (1 ≤ r.id ∧ r.id ≤ 1023 ∧ r.variant ≤ 15 ∧ r.serial.length = 12) && r.serial.all (· ≤ 9)
    && decide (r.ops.length ≤ Config.opsCapacity) && r.ops.all fun e => decide (1 ≤ e.station ∧ e.station ≤ 63)

/-- R19: two decimal digits in one octet, the earlier in the upper four bits. -/
def serialOctets : List Nat → List Byte
  | a :: b :: rest => BitVec.ofNat 8 (16 * a + b) :: serialOctets rest
  | _ => []

/-- R19: the digits of serial octets. -/
def serialDigits : List Byte → List Nat
  | [] => []
  | o :: rest => (o.toNat / 16) :: (o.toNat % 16) :: serialDigits rest

/-- R19: the octets of an operation list, oldest entry first. -/
def opsOctets : List OpEntry → List Byte
  | [] => []
  | e :: rest => BitVec.ofNat 8 e.station :: BitVec.ofNat 8 e.result.code :: opsOctets rest

/-- R19: the operation list that octets spell; a station number outside 1 to 63 or a result outside Table 1-6 is a fault. -/
def opsOfOctets : List Byte → Option (List OpEntry)
  | [] => some []
  | [_] => none
  | s :: c :: rest =>
    match MachResult.ofCode c.toNat, opsOfOctets rest with
    | some r, some es => if 1 ≤ s.toNat ∧ s.toNat ≤ 63 then some (⟨s.toNat, r⟩ :: es) else none
    | _, _ => none

/-- R19, Table 1-7: a pallet record's octets, `12 + 2 E` of them. -/
def recordOctets (r : PalletRecord) : List Byte :=
  octets 2 r.id ++ [BitVec.ofNat 8 r.variant] ++ serialOctets r.serial
    ++ [BitVec.ofNat 8 r.verdict.code, flagOctet r.truncated, BitVec.ofNat 8 r.ops.length] ++ opsOctets r.ops

/-- R19: a record, or the empty marker (the pallet id field alone, with the value 0). -/
def contentOctets : Option PalletRecord → List Byte
  | none => octets 2 0
  | some r => recordOctets r

/-- R19: the record that octets spell; `none` where R19 calls it a fault, the empty marker among them. -/
def recordOfOctets (os : List Byte) : Option PalletRecord :=
  match os with
  | i1 :: i0 :: v :: s0 :: s1 :: s2 :: s3 :: s4 :: s5 :: vd :: tr :: e :: rest =>
    match Verdict.ofCode vd.toNat, boolOfCode tr.toNat, opsOfOctets rest with
    | some verdict, some truncated, some ops =>
      let r : PalletRecord :=
        { id := octetsNat [i1, i0], variant := v.toNat, serial := serialDigits [s0, s1, s2, s3, s4, s5]
          verdict := verdict, truncated := truncated, ops := ops }
      if recordInRange r ∧ ops.length = e.toNat then some r else none
    | _, _, _ => none
  | _ => none

/-- R19: the content of a HANDOVER that octets spell. -/
def contentOfOctets (os : List Byte) : Option (Option PalletRecord) :=
  if os = octets 2 0 then some none else (recordOfOctets os).map some

/-! Payloads (R18, Table 1-5). -/

/-- Table 1-5: every field in its range; for READY also the combinations R18 allows. -/
def payloadInRange : Payload → Bool
  | .stop _ cause level => decide (cause ≤ 23 ∧ level ≤ 7)
  | .lifted _ => true
  | .lowered _ => true
  | .resume _ sp => decide (sp ≤ 2500000)
  | .ready f => decide (f.pallet ≤ 1023 ∧ f.variant ≤ 15)
      && (if f.status = .held then decide (1 ≤ f.pallet) else decide (f.pallet = 0))
      && decide (f.pallet = 0 → f.variant = 0 ∧ f.verdict = .good)
  | .hold level cause => decide (level ≤ 7 ∧ cause ≤ 23)
  | .handover _ none => true
  | .handover _ (some r) => recordInRange r
  | .position f => decide (f.period ≤ 65535 ∧ -2500000 ≤ f.offset ∧ f.offset ≤ 2500000
      ∧ -32767 ≤ f.error ∧ f.error ≤ 32767)
  | .beat _ => true
  | .join f => decide (400000 ≤ f.pitch ∧ f.pitch ≤ 2500000 ∧ 25600 ≤ f.vmax ∧ f.vmax ≤ 512000 ∧ 64 ≤ f.accel
      ∧ f.accel ≤ 2048 ∧ 64 ≤ f.stopDecel ∧ f.stopDecel ≤ 4096 ∧ 2 ≤ f.members ∧ f.members ≤ 16 ∧ f.level ≤ 7
      ∧ f.cause ≤ 23)

/-- Table 1-5: the octets of a payload. -/
def payloadOctets : Payload → List Byte
  | .stop i cause level => octets 2 i.toNat ++ octets 1 cause ++ octets 1 level
  | .lifted i => octets 2 i.toNat
  | .lowered i => octets 2 i.toNat
  | .resume i sp => octets 2 i.toNat ++ octets 4 sp
  | .ready f => octets 2 f.index.toNat ++ octets 2 f.pallet ++ octets 1 f.variant ++ octets 1 f.verdict.code
      ++ octets 1 f.status.code
  | .hold level cause => octets 1 level ++ octets 1 cause
  | .handover i c => octets 2 i.toNat ++ contentOctets c
  | .position f => octets 2 f.index.toNat ++ octets 1 f.kind.code ++ octets 2 f.period ++ signedOctets 4 f.offset
      ++ signedOctets 2 f.error ++ [flagOctet f.saturated]
  | .beat st => octets 1 st.code
  | .join f => octets 4 f.pitch ++ octets 4 f.vmax ++ octets 2 f.accel ++ octets 2 f.stopDecel ++ octets 1 f.members
      ++ octets 2 f.index.toNat ++ [flagOctet f.forming] ++ octets 1 f.level ++ octets 1 f.cause

/-- The payload fields that octets spell for a kind, before the range tests. -/
def payloadFields (k : FrameKind) (os : List Byte) : Option Payload :=
  match k, os with
  | .stop, [i1, i0, c, l] => some (.stop (i1 ++ i0) c.toNat l.toNat)
  | .lifted, [i1, i0] => some (.lifted (i1 ++ i0))
  | .lowered, [i1, i0] => some (.lowered (i1 ++ i0))
  | .resume, [i1, i0, a, b, c, d] => some (.resume (i1 ++ i0) (octetsNat [a, b, c, d]))
  | .ready, [i1, i0, p1, p0, v, vd, st] =>
    match Verdict.ofCode vd.toNat, FixtureStatus.ofCode st.toNat with
    | some verdict, some status => some (.ready ⟨i1 ++ i0, octetsNat [p1, p0], v.toNat, verdict, status⟩)
    | _, _ => none
  | .hold, [l, c] => some (.hold l.toNat c.toNat)
  | .handover, i1 :: i0 :: rest => (contentOfOctets rest).map (.handover (i1 ++ i0))
  | .position, [i1, i0, k, p1, p0, a, b, c, d, e1, e0, s] =>
    match ProfileCode.ofCode k.toNat, boolOfCode s.toNat with
    | some kind, some saturated =>
      some (.position ⟨i1 ++ i0, kind, octetsNat [p1, p0], octetsInt [a, b, c, d], octetsInt [e1, e0], saturated⟩)
    | _, _ => none
  | .beat, [s] => (StepState.ofCode s.toNat).map .beat
  | .join, [p3, p2, p1, p0, v3, v2, v1, v0, a1, a0, d1, d0, m, i1, i0, g, l, c] =>
    match boolOfCode g.toNat with
    | some forming => some (.join ⟨octetsNat [p3, p2, p1, p0], octetsNat [v3, v2, v1, v0], octetsNat [a1, a0],
        octetsNat [d1, d0], m.toNat, i1 ++ i0, forming, l.toNat, c.toNat⟩)
    | none => none
  | _, _ => none

/-- R4, R18: the payload that octets spell for a kind, or none where R4 finds a fault in them. -/
def payloadOfOctets (k : FrameKind) (os : List Byte) : Option Payload :=
  match payloadFields k os with
  | some p => if payloadInRange p then some p else none
  | none => none

/-! The frame on the link (Table 1-2, R16, R17). -/

/-- R4: the header and payload of a frame are in the ranges of Table 1-4 and Table 1-5. -/
def frameInRange (f : Frame) : Bool :=
  decide (1 ≤ f.header.sectionId ∧ f.header.sectionId ≤ 15 ∧ 1 ≤ f.header.sender ∧ f.header.sender ≤ 63)
    && payloadInRange f.payload

/-- R2: the frame's identifier; the lowest wins arbitration. -/
def frameIdentifier (f : Frame) : Nat := f.payload.kind.priority * 64 + f.header.sender

/-- R2: the ten arbitration bits. -/
def arbitrationBits (f : Frame) : List Bool :=
  natBits 4 f.payload.kind.priority ++ natBits 6 f.header.sender

/-- Table 1-4: the header octets and the payload octets. -/
def frameOctets (f : Frame) : List Byte :=
  octets 1 f.header.sectionId ++ octets 4 f.header.stamp.toNat ++ octets 1 (payloadOctets f.payload).length
    ++ payloadOctets f.payload

/-- R17: the check of a frame, over the arbitration bits and the header and payload octets. -/
def frameCheck (f : Frame) : BitVec 16 := check (arbitrationBits f ++ octetBits (frameOctets f))

/-- Table 1-2: an octet on the link, preceded by its recessive sync bit. -/
def syncedBits (os : List Byte) : List Bool := os.flatMap fun o => true :: natBits 8 o.toNat

/-- Table 1-2: the bits of a frame in the order sent, from its start bit to its last end bit. -/
def frameBits (f : Frame) : List Bool :=
  false :: (arbitrationBits f ++ syncedBits (frameOctets f ++ octets 2 (frameCheck f).toNat) ++ List.replicate 8 true)

/-- R173, R177: the octets of a request with this many octets of fields: its kind, the length, the fields and the check. -/
def requestOctets (fields : Nat) : Nat := 4 + fields

/-- Table 11-6: the fields of SET_ITEM for an item. -/
def itemFields : ItemWrite → List Byte
  | .stationNumber v => [0, v]
  | .sectionId v => [1, v]
  | .members v => 2 :: BitVec.ofNat 8 v.length :: v
  | .pitch v => 3 :: octets 4 v.toNat
  | .vmax v => 4 :: octets 2 v.toNat
  | .accel v => 5 :: octets 2 v.toNat
  | .stopDecel v => 6 :: octets 2 v.toNat
  | .homingSpeed v => [7, v]
  | .followLimit v => 8 :: octets 2 v.toNat
  | .inposWindow v => 9 :: octets 2 v.toNat
  | .settleStage v => [10, v]
  | .releaseStepTimeout v => 11 :: octets 2 v.toNat
  | .locateTimeout v => 12 :: octets 2 v.toNat
  | .clampTimeout v => 13 :: octets 2 v.toNat
  | .liftBarrierTimeout v => 14 :: octets 2 v.toNat
  | .lowerTimeout v => 15 :: octets 2 v.toNat
  | .causeLevel c l => [16, c, l]
  | .unknown name value => name :: value

/-- R16: the bit times of a frame with `p` payload octets. -/
def frameBitTimes (p : Nat) : Nat := 91 + 9 * p

/-- R16: the time from frame start to observation, in µs. -/
def frameDuration (p : Nat) : Nat := 182 + 18 * p

/-- R16: the time a frame marked at its error-mark slot holds the link, in µs. -/
def markedDuration (p : Nat) : Nat := 2 * ((83 + 9 * p) + 12 + 8)

/-- R1: the bits after which a link carrying no frame is idle; R5: the dominant bits of an error mark. -/
def idleBits : Nat := 8
/-- R5: an error mark is this many dominant bits. -/
def markBits : Nat := 12
/-- R1: the recessive run after which a station that leaves reset sees the link idle. -/
def resetIdleBits : Nat := 600

/-- `n` octets taken off the link, each after its sync bit, and the bits that follow; none when a sync bit reads dominant
or the bits end (R4). -/
def takeSynced : Nat → List Bool → Option (List Byte × List Bool)
  | 0, bits => some ([], bits)
  | n + 1, true :: b7 :: b6 :: b5 :: b4 :: b3 :: b2 :: b1 :: b0 :: rest =>
    match takeSynced n rest with
    | some (os, after) => some (BitVec.ofNat 8 (bitsNat [b7, b6, b5, b4, b3, b2, b1, b0]) :: os, after)
    | none => none
  | _ + 1, _ => none

/-- R4, R7: the tests an LPT makes on the end field: recessive but for the last end bit, which may read either way. -/
def endFieldGood (bits : List Bool) : Bool :=
  decide (bits.length = 8) && (bits.take 7).all id

/-- R2, R4: what a sender finds in the bits that it reads back. -/
inductive ReadBack where
  /-- No bit has differed in a way that counts. -/
  | agrees
  /-- R2: arbitration is lost. -/
  | lost
  /-- R4: a read-back fault. -/
  | fault
  deriving DecidableEq, Repr

/-- R2, R4: the bits sent from bit `n` of a frame on, against those read back, to the first difference that counts. In the arbitration
field (bits 1 to 10) a recessive bit read dominant loses arbitration and a dominant one read recessive is a fault; after it any difference
is, but for a last end bit read dominant. -/
def readBack (n : Nat) : List Bool → List Bool → ReadBack
  | s :: ss, r :: rs =>
    if s = r ∨ n = 0 ∨ ss = [] then readBack (n + 1) ss rs
    else if n ≤ 10 ∧ s = true then .lost else .fault
  | _, _ => .agrees

/-- R4, R7: the frame that a receiving LPT observes from the bits on the link, or none where it finds a fault. -/
def receiveFrame (bits : List Bool) : Option Frame :=
  match bits with
  | false :: k3 :: k2 :: k1 :: k0 :: n5 :: n4 :: n3 :: n2 :: n1 :: n0 :: rest =>
    match FrameKind.ofPriority (bitsNat [k3, k2, k1, k0]), takeSynced 6 rest with
    | some kind, some (header, afterHeader) =>
      match takeSynced (octetsNat (header.drop 5)) afterHeader with
      | some (payload, afterPayload) =>
        match payloadOfOctets kind payload, takeSynced 2 afterPayload with
        | some p, some (ck, tail) =>
          let f : Frame :=
            { header := { sectionId := octetsNat (header.take 1), sender := bitsNat [n5, n4, n3, n2, n1, n0]
                          stamp := BitVec.ofNat 32 (octetsNat ((header.drop 1).take 4)) }
              payload := p }
          if frameInRange f ∧ ck = octets 2 (check ([k3, k2, k1, k0, n5, n4, n3, n2, n1, n0]
              ++ octetBits (header ++ payload))).toNat ∧ endFieldGood tail then some f else none
        | _, _ => none
      | none => none
    | _, _ => none
  | _ => none

end Sys2Proof.Machine
end

