-- ==== Sys2Proof/WellFormed.lean ====
section
/-! DEFINITION. Which terms of `Instr` stand for a command or event that the interfaces of the 740 can carry. -/

namespace Sys2Proof

/-- Table 11-5: the codes of the item names run from 0 to 16. -/
def itemNameLimit : Nat := 16

/-- R177: an item's value fits the one octet that gives the length of a request's fields, and an item name that is no
name of Table 10-1 is above the codes of Table 11-5. -/
def ItemWrite.wellFormed : ItemWrite → Bool
  | .members v => decide (v.length ≤ 253)
  | .unknown name value => decide (itemNameLimit < name.toNat ∧ value.length ≤ 254)
  | _ => true

/-- A frame that the tests of R4 let pass. -/
def wellFormedFrame (h : Header) (p : Payload) : Bool := Machine.frameInRange ⟨h, p⟩

/-- A command or event that can reach the 740: requests as R177 can lay them out, frames that pass R4, positions 1 to 16
of members, and locator changes that change something. -/
def Instr.wellFormed : Instr → Bool
  | .setItem w => w.wellFormed
  | .loadEntry os => decide (os.length ≤ 255)
  | .loadFixture os => decide (os.length ≤ 255)
  | .malformedRequest k => k != 0
  | .reset c shortPulse => !shortPulse || c == .resetInput
  | .foreignFrameObserved f => Machine.frameInRange f
  | .beatObserved h st => wellFormedFrame h (.beat st)
  | .joinObserved h f => wellFormedFrame h (.join f)
  | .readyObserved h f => wellFormedFrame h (.ready f)
  | .liftedObserved h i => wellFormedFrame h (.lifted i)
  | .loweredObserved h i => wellFormedFrame h (.lowered i)
  | .resumeObserved h i sp => wellFormedFrame h (.resume i sp)
  | .stopObserved h i c l => wellFormedFrame h (.stop i c l)
  | .holdObserved h l c => wellFormedFrame h (.hold l c)
  | .positionObserved h f => wellFormedFrame h (.position f)
  | .handoverObserved h i c => wellFormedFrame h (.handover i c)
  | .memberSilent p => decide (1 ≤ p ∧ p ≤ 16)
  | .locatorsEngaged a b => a || b
  | .locatorOff a b => !(a && b)
  | .join => true
  | .getStatus => true
  | .getCauses => true
  | .clearCause _ => true
  | .setAttnMask _ => true
  | .reportResult _ => true
  | .declareEmpty => true
  | .getFixtureRecord => true
  | .getIncoming => true
  | .takeExitRecord => true
  | .getImage => true
  | .getPeer _ => true
  | .resume => true
  | .noneTransaction _ => true
  | .linkIdleSeen => true
  | .frameStart _ => true
  | .arbitrationLost => true
  | .frameMarked => true
  | .foreignFrameTimerExpiry => true
  | .beatInstant => true
  | .joinRepetition => true
  | .readyOffer => true
  | .formingExit => true
  | .homingStart => true
  | .liftBarrierTimerExpiry => true
  | .loweringTimerExpiry => true
  | .upstreamTimerExpiry => true
  | .homingTimerExpiry => true
  | .homeCheckTimerExpiry => true
  | .releaseStepTimerExpiry => true
  | .locateTimerExpiry => true
  | .clampTimerExpiry => true
  | .settleMarkSet => true
  | .profileOrigin => true
  | .localProfileStart => true
  | .periodEnd => true
  | .setpointWordRepeat => true
  | .setpointWordEnd => true
  | .machClearDrop => true
  | .emergencyOn => true
  | .driveFaultOn => true
  | .clampPressureOff => true
  | .clampPressureMade => true
  | .palletPresentChange _ => true
  | .plateCodeChange _ => true
  | .liftUpSensorOn => true
  | .liftDownSensorOn => true
  | .liftSensorOff _ => true
  | .homeSensorChange _ => true
  | .encoderEdge _ => true
  | .machClearOn => true
  | .emergencyOff => true
  | .driveFaultOff => true
  | .homeCapture _ => true

end Sys2Proof
end

