-- ==== Sys2Proof/Decode.lean ====
section
/-! DEFINITION. From what reaches the interfaces of the 740 to its commands: Cell Port transactions (R173, R177) and bits on
the Section Line (R4, R7, R17). The rows of spec/opcode_table.json give no bits, so `decodeTableWord` answers none. -/

namespace Sys2Proof

/-- The command that a table word spells: no row of spec/opcode_table.json gives bits, so there is none (assumption 2). -/
def decodeTableWord (_nbits _w : Nat) : Option Instr := none

/-! Cell Port requests. -/

/-- A one-octet value. -/
def byteValue : List Byte → Option Byte
  | [v] => some v
  | _ => none

/-- A two-octet value, most significant octet first. -/
def halfValue : List Byte → Option (BitVec 16)
  | [a, b] => some (a ++ b)
  | _ => none

/-- Table 11-6: the item and value that the fields of SET_ITEM spell; none where their length is not the item's. -/
def decodeItem : List Byte → Option ItemWrite
  | [] => none
  | name :: value =>
    match name.toNat with
    | 0 => (byteValue value).map .stationNumber
    | 1 => (byteValue value).map .sectionId
    | 2 => match value with
      | count :: entries => if entries.length = count.toNat then some (.members entries) else none
      | [] => none
    | 3 => match value with
      | [a, b, c, d] => some (.pitch (a ++ b ++ c ++ d))
      | _ => none
    | 4 => (halfValue value).map .vmax
    | 5 => (halfValue value).map .accel
    | 6 => (halfValue value).map .stopDecel
    | 7 => (byteValue value).map .homingSpeed
    | 8 => (halfValue value).map .followLimit
    | 9 => (halfValue value).map .inposWindow
    | 10 => (byteValue value).map .settleStage
    | 11 => (halfValue value).map .releaseStepTimeout
    | 12 => (halfValue value).map .locateTimeout
    | 13 => (halfValue value).map .clampTimeout
    | 14 => (halfValue value).map .liftBarrierTimeout
    | 15 => (halfValue value).map .lowerTimeout
    | 16 => match value with
      | [c, l] => some (.causeLevel c l)
      | _ => none
    | _ => some (.unknown name value)

/-- A request that carries no fields. -/
def noFields (i : Instr) : List Byte → Option Instr
  | [] => some i
  | _ => none

/-- Table 11-5, Table 11-6: the request that a kind and its fields spell; none where the kind is not one of Table 11-2 or the
length is not the one its kind and fields call for. The length of a pallet record is judged by R128. -/
def decodeRequest (kind : Nat) (fields : List Byte) : Option Instr :=
  match kind with
  | 1 => (decodeItem fields).map .setItem
  | 2 => noFields .join fields
  | 3 => noFields .getStatus fields
  | 4 => noFields .getCauses fields
  | 5 => (byteValue fields).map .clearCause
  | 6 => (byteValue fields).map .setAttnMask
  | 7 => (byteValue fields).map .reportResult
  | 8 => some (.loadEntry fields)
  | 9 => some (.loadFixture fields)
  | 10 => noFields .declareEmpty fields
  | 11 => noFields .getFixtureRecord fields
  | 12 => noFields .getIncoming fields
  | 13 => noFields .takeExitRecord fields
  | 14 => noFields .getImage fields
  | 15 => (byteValue fields).map .getPeer
  | 16 => noFields .resume fields
  | _ => none

/-- R173: the command of a transaction whose complete octets are `os` (an octet cut short is discarded): no request, a
complete request, or a malformed or cut one. Octets after the end of a complete request are ignored, and a transaction without one
complete octet hands no request on (DEDUCED, assumption 21). -/
def decodeTransaction (os : List Byte) : Instr :=
  match os with
  | [] => .noneTransaction 0
  | kind :: rest =>
    if kind = 0 then .noneTransaction os.length
    else
      match rest with
      | [] => .malformedRequest kind
      | len :: body =>
        let fields := body.take len.toNat
        if (body.drop len.toNat).take 2 = Machine.checkOctets (kind :: len :: fields) then
          (decodeRequest kind.toNat fields).getD (.malformedRequest kind)
        else .malformedRequest kind

/-- Table 11-5, Table 11-6: the kind code and the fields of a request; none for a command that is no Cell Port request. -/
def requestParts : Instr → Option (Nat × List Byte)
  | .setItem w => some (1, Machine.itemFields w)
  | .join => some (2, [])
  | .getStatus => some (3, [])
  | .getCauses => some (4, [])
  | .clearCause c => some (5, [c])
  | .setAttnMask m => some (6, [m])
  | .reportResult r => some (7, [r])
  | .loadEntry os => some (8, os)
  | .loadFixture os => some (9, os)
  | .declareEmpty => some (10, [])
  | .getFixtureRecord => some (11, [])
  | .getIncoming => some (12, [])
  | .takeExitRecord => some (13, [])
  | .getImage => some (14, [])
  | .getPeer n => some (15, [n])
  | .resume => some (16, [])
  | _ => none

/-- R177: a request on the Cell Port: its kind, the length of its fields, its fields and its check. -/
def encodeRequest (i : Instr) : Option (List Byte) :=
  match requestParts i with
  | some (kind, fields) =>
    let head := BitVec.ofNat 8 kind :: BitVec.ofNat 8 fields.length :: fields
    some (head ++ Machine.checkOctets head)
  | none => none

/-- R174: the octets of a transaction after those of its request, or after the kind octet of a malformed one; none of one without a
request. -/
def trailingOctets (os : List Byte) : Nat :=
  match decodeTransaction os with
  | .noneTransaction _ => 0
  | i => os.length - ((encodeRequest i).map List.length).getD 1

/-! The Section Line. -/

/-- The command that the observation of a frame is (the table's rows are named after the frame kinds). -/
def observedCommand (f : Frame) : Instr :=
  match f.payload with
  | .stop i c l => .stopObserved f.header i c l
  | .lifted i => .liftedObserved f.header i
  | .lowered i => .loweredObserved f.header i
  | .resume i sp => .resumeObserved f.header i sp
  | .ready r => .readyObserved f.header r
  | .hold l c => .holdObserved f.header l c
  | .handover i c => .handoverObserved f.header i c
  | .position p => .positionObserved f.header p
  | .beat st => .beatObserved f.header st
  | .join j => .joinObserved f.header j

/-- R4, R5, R7: the command that the bits of one frame on the link are at a receiver: an observation, or a marked frame where an LPT
finds a fault in them. -/
def decodeLinkBits (bits : List Bool) : Instr :=
  match Machine.receiveFrame bits with
  | some f => observedCommand f
  | none => .frameMarked

/-- R5: a mark that begins at bit `n` of a frame finds its sender still sending: no bit before it has lost arbitration. -/
def markedSending (own : Frame) (n : Nat) (bits : List Bool) : Bool :=
  Machine.readBack 0 (Machine.frameBits own) (bits.take n) == .agrees

/-- R2, R4, R5: the commands that the bits of one frame on the link are at a station that sends a frame in it: a read-back fault marks it,
a lost arbitration leaves a receiver. `mark` is the bit at which the first error mark begins, if one does: a mark that covers a recessive
arbitration bit of a station still sending marks its attempt. The bits alone do not tell where in a run of dominant ones a mark begins
(DESIGN CHOICE, assumption 30). -/
def decodeSentBits (own : Frame) (mark : Option Nat) (bits : List Bool) : List Instr :=
  match Machine.readBack 0 (Machine.frameBits own) bits with
  | .agrees => [decodeLinkBits bits]
  | .lost => if mark.any (markedSending own · bits) then [.frameMarked] else [.arbitrationLost, decodeLinkBits bits]
  | .fault => [.frameMarked]

end Sys2Proof
end

