-- ==== Sys2Proof/Machine/Blocks.lean ====
section
/-! DEFINITION. The state of the blocks of the 740 (Table 0-1) as plain data. Times are in µs: a timer is `none` while stopped
and otherwise the time it still has to run. -/

namespace Sys2Proof.Machine

/-! Line Port. -/

/-- A frame that the station has asked the link to carry. The id is the model's: two queuings are two frames (R6). -/
structure QueuedFrame where
  id : Nat
  payload : Payload
  deriving DecidableEq, Repr

/-- R3: what is kept of the frame on the link: the local start time, and the sum of the steps of line time since (R24). -/
structure FrameClock where
  localStart : LineTime
  stepped : Int
  deriving DecidableEq, Repr

/-- The Line Port (R1 to R15). -/
structure Lpt where
  /-- R1, R12: the link has been seen idle since reset. -/
  idleSeen : Bool
  /-- R9: the transmit queue, highest kind priority first. -/
  queue : List QueuedFrame
  /-- R10: the transmit buffer. -/
  buffer : Option QueuedFrame
  /-- R11: a withdrawal is held over the attempt in progress. -/
  withdrawHeld : Bool
  /-- R3: the frame on the link in which the station takes part, as sender or receiver. -/
  frame : Option FrameClock
  /-- R6: the counted frame, by its id. -/
  counted : Option Nat
  /-- R6: the repeat count. -/
  count : Nat
  /-- R15: the foreign-frame timer. -/
  foreignTimer : Option Nat
  /-- The model's own: the id of the next queued frame. -/
  nextId : Nat
  deriving DecidableEq, Repr

/-! Line Time Unit (Table 2-1). -/

/-- R24: an offset sample and the index (from 0) of the member it came from. -/
structure Sample where
  member : Nat
  offset : Int
  deriving DecidableEq, Repr

/-- The Line Time Unit's own state; its peer columns are in `Peer`. -/
structure Ltu where
  lineTime : LineTime
  nextBeat : Option LineTime
  samples : List Sample
  coarseRun : Nat
  fineRun : Nat
  step : StepState
  deriving DecidableEq, Repr

/-! Peer table (0.4.2). -/

/-- R169: a member's match flag. -/
inductive MatchFlag where
  | unknown | yes | no
  deriving DecidableEq, Repr

/-- R169: the JOIN columns of a member. -/
structure JoinColumns where
  pitch : Nat
  vmax : Nat
  accel : Nat
  stopDecel : Nat
  members : Nat
  index : IndexNo
  forming : Bool
  deriving DecidableEq, Repr

/-- R100: the last POSITION of a member. -/
structure PositionColumns where
  fields : PositionFields
  observed : LineTime
  deriving DecidableEq, Repr

/-- One member's record of the peer table, its columns by block. -/
structure Peer where
  /-- LTU (R32). -/
  lastHeard : Option LineTime
  /-- LTU (R32): the silence count, in µs; none while stopped. -/
  silence : Option Nat
  /-- LTU (R24). -/
  lastOffset : Option Int
  /-- LTU (R24). -/
  reportedStep : Option StepState
  /-- IXS (R37). -/
  ready : Bool
  /-- IXS (R39). -/
  lifted : Bool
  /-- IXS (R40). -/
  resume : Bool
  /-- IXS (R41). -/
  lastLowered : Option IndexNo
  /-- IXS (R169). -/
  join : Option JoinColumns
  /-- IXS (R169). -/
  matched : MatchFlag
  /-- HAR (R154). -/
  level : Nat
  /-- HAR (R154). -/
  cause : Nat
  /-- SSV (R100). -/
  position : Option PositionColumns
  deriving DecidableEq, Repr

/-- A member's record as JOIN creates it (R32, R34, R35, R102, R160, R169). -/
def Peer.initial : Peer :=
  { lastHeard := none, silence := some 0, lastOffset := none, reportedStep := none, ready := false, lifted := false
    resume := false, lastLowered := none, join := none, matched := .unknown, level := 0, cause := 0, position := none }

/-! Index Sequencer (Table 3-1, Table 3-2). -/

/-- Table 3-2, in the order of the codes of Table 11-8. -/
inductive SeqState where
  | offline | forming | working | ready | releasing | liftWait | moving | stopping | stopped | resumeWait | abandoning
  | lowering | seating
  deriving DecidableEq, Repr

/-- The step within ABANDONING (R53), LOWERING (R58, R59) or SEATING (R60) at which the station waits. -/
inductive IndexStep where
  | none
  /-- R53 step 1: the lift DOWN in ABANDONING. -/
  | abandonLift
  /-- R53 step 3: the fixture in ABANDONING. -/
  | abandonSeat
  /-- R58: the shuttle in position in LOWERING. -/
  | inPosition
  /-- R58: the lift DOWN in LOWERING. -/
  | liftDown
  /-- R59: the own HANDOVER in LOWERING. -/
  | handover
  /-- R60: the upstream LOWERED or forming JOIN in SEATING. -/
  | upstream
  /-- R60: the fixture in SEATING. -/
  | seat
  deriving DecidableEq, Repr

/-- R63: how far the station's offer of RESUME has come. -/
inductive ResumeStep where
  | none
  /-- The reposition to the stop setpoint runs. -/
  | repositioning
  /-- The reposition has ended; RESUME waits for a setpoint word with the encoder in the window. -/
  | awaitWord
  deriving DecidableEq, Repr

/-- The Index Sequencer's own state; its marks and JOIN columns are in `Peer`. -/
structure Ixs where
  state : SeqState
  index : IndexNo
  origin : Option LineTime
  stopStamp : Option LineTime
  pendingResult : Option MachResult
  ownHandover : Bool
  liftBarrierTimer : Option Nat
  loweringTimer : Option Nat
  upstreamTimer : Option Nat
  /-- R167: the JOIN repetition. -/
  joinTimer : Option Nat
  /-- The step of ABANDONING, LOWERING or SEATING in progress. -/
  step : IndexStep
  /-- R61: the step whose timer expired, while the station still waits at it. -/
  lowerExpired : Option IndexStep
  /-- R59: elapsed time since profile completion. -/
  sinceCompletion : Nat
  /-- R63: how far the offer of RESUME has come. -/
  resumeStep : ResumeStep
  deriving DecidableEq, Repr

/-! Profile Generator (Table 4-1). -/

/-- Table 4-1. -/
inductive PgnPhase where
  | idle | waiting | running | ramping
  deriving DecidableEq, Repr

/-- Table 4-1: the kind of the active or last profile. -/
inductive PgnKind where
  | none | forward | resume | ret | reposition | homing
  deriving DecidableEq, Repr

/-- The Profile Generator (R66). Velocities, accelerations, distances and the accumulator are q8. -/
structure Pgn where
  phase : PgnPhase
  kind : PgnKind
  distance : Nat
  vLimit : Nat
  accel : Nat
  nAccel : Nat
  vPeak : Nat
  nCruise : Nat
  creep : Nat
  creepPeriod : Option Nat
  periods : Nat
  origin : LineTime
  /-- R71, R73: the origin of the profile has been reached. -/
  begun : Bool
  start : Int
  /-- Toward higher positions. -/
  up : Bool
  base : Nat
  counter : Nat
  velocity : Nat
  acc : Nat
  setpoint : Int
  stopPosition : Option Nat
  /-- R77, R84: the first period of a stop ramp, or of the ramp that ends a homing run. -/
  rampFrom : Option Nat
  /-- R73: elapsed time to the start or to the next period end of a local profile. -/
  localTimer : Option Nat
  /-- The model's own: line time before the step that it has taken at this microsecond with the period in progress already in progress
  (R71, R72; assumption 3). -/
  stepFrom : Option LineTime
  deriving DecidableEq, Repr

/-! Shuttle Supervisor (Table 5-1). -/

/-- Table 5-2, in the order of the codes of Table 11-8. -/
inductive ShuttleState where
  | unhomed | homing | atHome | forward | stopping | haltedMid | repositioning | atEnd | returning | halted
  deriving DecidableEq, Repr

/-- Table 5-1, R91. -/
inductive LiftState where
  | down | rising | up | falling
  deriving DecidableEq, Repr

/-- What a reposition is for: Table 5-4 tells the target PITCH from the target stop setpoint. -/
inductive RepositionUse where
  | toPitch | toStop | toHome | offCam
  deriving DecidableEq, Repr

/-- R88, R89: the stage of the homing sequence. The stages ending in `Failed` lead to UNHOMED. -/
inductive HomingStage where
  | none | offCam | creep | edgeRamp | toZero | check | rampFailed | repositionFailed
  deriving DecidableEq, Repr

/-- R100: the copy taken at each frame start. `stopHeld` tells IDLE after a stop ramp (R101;
DEDUCED, assumption 15). -/
structure FrameCopy where
  counter : Nat
  phase : PgnPhase
  kind : PgnKind
  stopHeld : Bool
  deriving DecidableEq, Repr

/-- The Shuttle Supervisor's own state; its peer column is in `Peer`. -/
structure Ssv where
  shuttle : ShuttleState
  haltedFrom : Option ShuttleState
  repositionTarget : Option Int
  repositionUse : Option RepositionUse
  liftState : LiftState
  /-- The LIFT output. -/
  lift : Bool
  encoder : BitVec 32
  homeCapture : Option (BitVec 32)
  followingError : Int
  /-- The DRIVE_ENABLE output. -/
  drive : Bool
  homingTimer : Option Nat
  homeCheckTimer : Option Nat
  /-- R90: a home check is running. -/
  homeCheck : Bool
  homingStage : HomingStage
  frameCopy : Option FrameCopy
  /-- R93: the setpoint that the last word on the drive setpoint line carries. -/
  word : Int
  /-- R93: elapsed time since that word was started, up to 1,000 µs. -/
  wordAge : Nat
  /-- R93: a period ended while a word was being sent. -/
  wordWaiting : Bool
  /-- R97: elapsed time since the encoder count last changed, up to 50 ms. -/
  encoderQuiet : Nat
  deriving DecidableEq, Repr

/-! Fixture Sequencer (Table 6-1). -/

/-- Table 6-2, in the order of the codes of Table 11-8. -/
inductive FixtureState where
  | open | opening | locating | clamping | secured
  deriving DecidableEq, Repr

/-- Table 6-1: the opening step. -/
inductive OpeningStep where
  | none | one | two
  deriving DecidableEq, Repr

/-- The Fixture Sequencer. -/
structure Fxs where
  state : FixtureState
  openingStep : OpeningStep
  release : Bool
  withdraw : Bool
  stepTimer : Option Nat
  clampTimer : Option Nat
  /-- R111: the settle counter, in µs. -/
  settle : Nat
  /-- R111: the number of settle marks set. -/
  marks : Nat
  deriving DecidableEq, Repr

/-- R104, R178: the taken values of the discrete inputs. -/
structure Inputs where
  machClear : Bool
  emergency : Bool
  driveFault : Bool
  home : Bool
  liftUp : Bool
  liftDown : Bool
  pressure : Bool
  locator1 : Bool
  locator2 : Bool
  palletPresent : Bool
  plate : BitVec 10
  deriving DecidableEq, Repr

/-! The lines of the discrete inputs and their sampling (R88, R104, R178, Table 11-3). The outside world sets the levels of the lines,
between steps (assumption 35). -/

/-- Table 11-3: the inputs of one line each, sampled by R178. -/
inductive InputLine where
  | machClear | emergency | driveFault | home | liftUp | liftDown | pressure | locator1 | locator2 | palletPresent
  deriving DecidableEq, Repr

/-- Table 11-3, R178: the level of an input line. -/
inductive LineLevel where
  /-- The line is closed, at the low level. -/
  | low
  /-- The line is closed, at the high level. -/
  | high
  /-- The line is open, as with a broken wire. -/
  | open
  deriving DecidableEq, Repr

/-- R178: one input line. -/
structure LineState where
  level : LineLevel
  /-- The number of samples in a row that found it at the value other than the taken one. -/
  run : Nat
  deriving DecidableEq, Repr

/-- R104: the ten plate code lines, sampled as one value. -/
structure PlateLines where
  /-- The combination on the lines: a bit is 1 where its line is high (Table 11-3). -/
  code : BitVec 10
  /-- The combination of the last sample; none: the one taken. -/
  sampled : Option (BitVec 10)
  /-- The number of samples in a row of that combination. -/
  run : Nat
  deriving DecidableEq, Repr

/-- R178: what the sampling keeps. -/
structure Sampling where
  /-- Elapsed time since the last sample, in µs. -/
  clock : Nat
  machClear : LineState
  emergency : LineState
  driveFault : LineState
  home : LineState
  liftUp : LineState
  liftDown : LineState
  pressure : LineState
  locator1 : LineState
  locator2 : LineState
  palletPresent : LineState
  plate : PlateLines
  deriving DecidableEq, Repr

/-! Record Store (Table 7-1). -/

/-- Table 7-1: the state of the outgoing record. -/
inductive OutgoingState where
  | queued | observed | lost
  deriving DecidableEq, Repr

/-- Table 7-1: the HANDOVER of the last origin; the content `none` is the empty marker. -/
structure Outgoing where
  index : IndexNo
  content : Option PalletRecord
  state : OutgoingState
  deriving DecidableEq, Repr

/-- Table 7-1: the last HANDOVER taken from the upstream member. -/
structure Incoming where
  index : IndexNo
  content : Option PalletRecord
  deriving DecidableEq, Repr

/-- The Record Store. -/
structure Rst where
  status : FixtureStatus
  record : Option PalletRecord
  outgoing : Option Outgoing
  incoming : Option Incoming
  exitQueue : List PalletRecord
  deriving DecidableEq, Repr

/-! Section Image (Table 8-1). -/

/-- R137: the content of a slot. -/
inductive Slot where
  | unknown
  | empty
  | pallet (id variant : Nat) (verdict : Verdict)
  deriving DecidableEq, Repr

/-- The Section Image. -/
structure Sim where
  slots : List Slot
  exitSlot : Slot
  deriving DecidableEq, Repr

/-! Hold Arbiter (Table 9-1). -/

/-- Table 9-1: the 24 causes, in the order of their numbers. -/
inductive Cause where
  | foreignFrame | exitQueueFull | fixtureUnknown | notInStep | returnFault | locateFault | clampNotSettled
  | palletMissing | recordMissing | palletIdentity | imageMismatch | profileMismatch | peerSilent
  | lineTransmitFailure | releaseFault | liftBarrierTimeout | lowerFault | machIntrusion | stepLostInMotion
  | syncDeviation | clampPressureLost | followingError | driveFault | emergency
  deriving DecidableEq, Repr

/-- What the Hold Arbiter holds for one cause. -/
structure CauseEntry where
  level : Nat
  pending : Bool
  deriving DecidableEq, Repr

/-- The Hold Arbiter's own state; its peer columns are in `Peer`. `causes` has one entry per cause number. -/
structure Har where
  causes : List CauseEntry
  announcedLevel : Nat
  announcedCause : Nat
  sectionLevel : Nat
  attnMask : BitVec 7
  deriving DecidableEq, Repr

/-- The outputs that follow from conditions over several blocks: MACH_PERMIT (R116), SECTION_STOP (R157), ATTN (R158). -/
structure Pins where
  machPermit : Bool
  sectionStop : Bool
  attn : Bool
  deriving DecidableEq, Repr

/-! The output lines (R179). -/

/-- R179: how a discrete output stands. -/
inductive OutputDrive where
  | driven | released
  deriving DecidableEq, Repr

/-- Table 11-3: the seven discrete outputs. -/
structure OutputLines where
  release : OutputDrive
  withdraw : OutputDrive
  lift : OutputDrive
  driveEnable : OutputDrive
  machPermit : OutputDrive
  attn : OutputDrive
  sectionStop : OutputDrive
  deriving DecidableEq, Repr

/-! Cell Port. -/

/-- Table 11-1, in the order of the codes of Table 11-5. -/
inductive Status where
  | done | refusedState | refusedValue | refusedIncomplete | refusedActive | refusedIdentity | nothing
  deriving DecidableEq, Repr

/-- R174: a response. -/
structure Response where
  kind : Byte
  status : Status
  fields : List Byte
  deriving DecidableEq, Repr

/-- The Cell Port. -/
structure Cpt where
  /-- R174: the response buffer. -/
  response : Option Response
  /-- R174: the response in the buffer has been read. -/
  responseRead : Bool
  /-- The model's own: the octets that the last transaction shifted out (R174; assumption 14). -/
  shifted : List Byte
  /-- The model's own, set from outside between steps: how many octets the controller clocks after those of a request, or after the kind
octet of a malformed one, in its transaction (R174; assumption 14). -/
  trailing : Nat
  /-- R180. -/
  resetCause : ResetCause
  deriving DecidableEq, Repr

/-- Table 10-1: the configuration items in the form they are held; CAUSE_LEVEL is held in `Har.causes`. -/
structure Items where
  stationNumber : Option Nat
  sectionId : Option Nat
  members : Option (List Nat)
  pitch : Option Nat
  vmax : Nat
  accel : Nat
  stopDecel : Nat
  homingSpeed : Nat
  followLimit : Nat
  inposWindow : Nat
  settleStage : Nat
  releaseStepTimeout : Nat
  locateTimeout : Nat
  clampTimeout : Nat
  liftBarrierTimeout : Nat
  lowerTimeout : Nat
  deriving DecidableEq, Repr

end Sys2Proof.Machine
end

