-- ==== Sys2Proof/Machine/Reset.lean ====
section
/-! DEFINITION. The cause table (Table 9-1) and the value of each block after power-on and after the RESET input. -/

namespace Sys2Proof.Machine

/-! The causes (Table 9-1). -/

/-- Table 9-1: the causes in the order of their numbers. -/
def Cause.all : List Cause :=
  [.foreignFrame, .exitQueueFull, .fixtureUnknown, .notInStep, .returnFault, .locateFault, .clampNotSettled,
   .palletMissing, .recordMissing, .palletIdentity, .imageMismatch, .profileMismatch, .peerSilent,
   .lineTransmitFailure, .releaseFault, .liftBarrierTimeout, .lowerFault, .machIntrusion, .stepLostInMotion,
   .syncDeviation, .clampPressureLost, .followingError, .driveFault, .emergency]

/-- Table 9-1: the default level. -/
def Cause.defaultLevel : Cause → Nat
  | .foreignFrame => 2
  | .exitQueueFull | .fixtureUnknown | .notInStep => 4
  | .returnFault | .locateFault | .clampNotSettled | .palletMissing | .recordMissing | .palletIdentity
  | .imageMismatch => 5
  | .profileMismatch | .peerSilent | .lineTransmitFailure | .releaseFault | .liftBarrierTimeout | .lowerFault
  | .machIntrusion | .stepLostInMotion => 6
  | .syncDeviation | .clampPressureLost | .followingError | .driveFault | .emergency => 7

/-- Table 9-1: the number of a cause. -/
def Cause.number : Cause → Nat
  | .foreignFrame => 0 | .exitQueueFull => 1 | .fixtureUnknown => 2 | .notInStep => 3 | .returnFault => 4
  | .locateFault => 5 | .clampNotSettled => 6 | .palletMissing => 7 | .recordMissing => 8 | .palletIdentity => 9
  | .imageMismatch => 10 | .profileMismatch => 11 | .peerSilent => 12 | .lineTransmitFailure => 13
  | .releaseFault => 14 | .liftBarrierTimeout => 15 | .lowerFault => 16 | .machIntrusion => 17
  | .stepLostInMotion => 18 | .syncDeviation => 19 | .clampPressureLost => 20 | .followingError => 21
  | .driveFault => 22 | .emergency => 23

/-- Table 9-1: the cause of a number. -/
def Cause.ofNumber (n : Nat) : Option Cause := Cause.all[n]?

/-- Table 9-1: the floor, the lowest level a cause may be given. -/
def Cause.floor : Cause → Nat
  | .foreignFrame => 0
  | .palletMissing | .recordMissing | .palletIdentity | .imageMismatch => 2
  | .exitQueueFull | .fixtureUnknown | .notInStep | .returnFault | .locateFault | .clampNotSettled => 4
  | .profileMismatch | .peerSilent | .lineTransmitFailure | .releaseFault | .liftBarrierTimeout | .lowerFault
  | .machIntrusion | .stepLostInMotion | .syncDeviation | .clampPressureLost => 6
  | .followingError | .driveFault | .emergency => 7

/-- Table 9-1: a latched cause; the others are self-clearing. -/
def Cause.latched : Cause → Bool
  | .foreignFrame | .exitQueueFull | .fixtureUnknown | .notInStep | .profileMismatch | .peerSilent => false
  | _ => true

/-- R148: the self-clearing causes, in the order of their numbers. -/
def Cause.selfClearing : List Cause :=
  [.foreignFrame, .exitQueueFull, .fixtureUnknown, .notInStep, .profileMismatch, .peerSilent]

/-! Reset values; those of fields that no rule names are the model's (DESIGN CHOICE, assumption 33) (R12, R34,
R35, R66, R102, R117, R136, R146, R160, R161, R174, R178, R180). -/

/-- R12. -/
def Lpt.reset : Lpt :=
  { idleSeen := false, queue := [], buffer := none, withdrawHeld := false, frame := none, counted := none, count := 0
    foreignTimer := none, nextId := 0 }

/-- R34. -/
def Ltu.reset : Ltu :=
  { lineTime := 0, nextBeat := none, samples := [], coarseRun := 0, fineRun := 0, step := .none }

/-- R35. -/
def Ixs.reset : Ixs :=
  { state := .offline, index := 0, origin := none, stopStamp := none, pendingResult := none, ownHandover := false
    liftBarrierTimer := none, loweringTimer := none, upstreamTimer := none, joinTimer := none, step := .none
    lowerExpired := none, sinceCompletion := 0, resumeStep := .none }

/-- R66; the fields R66 does not name are zero (assumption 5). -/
def Pgn.reset : Pgn :=
  { phase := .idle, kind := .none, distance := 0, vLimit := 0, accel := 0, nAccel := 0, vPeak := 0, nCruise := 0
    creep := 0, creepPeriod := none, periods := 0, origin := 0, begun := false, start := 0, up := false, base := 0
    counter := 0, velocity := 0, acc := 0, setpoint := 0, stopPosition := none, rampFrom := none, localTimer := none
    stepFrom := none }

/-- R102; R93: a word carrying 0 µm is started at the end of reset. -/
def Ssv.reset : Ssv :=
  { shuttle := .unhomed, haltedFrom := none, repositionTarget := none, repositionUse := none, liftState := .falling
    lift := false, encoder := 0, homeCapture := none, followingError := 0, drive := false, homingTimer := none
    homeCheckTimer := none, homeCheck := false, homingStage := .none, frameCopy := none, word := 0, wordAge := 0
    wordWaiting := false, encoderQuiet := Config.encoderRest }

/-- R117. -/
def Fxs.reset : Fxs :=
  { state := .locating, openingStep := .none, release := false, withdraw := false, stepTimer := none
    clampTimer := none, settle := 0, marks := 0 }

/-- R117, R178: every input is taken as off until it has held one value. -/
def Inputs.reset : Inputs :=
  { machClear := false, emergency := false, driveFault := false, home := false, liftUp := false, liftDown := false
    pressure := false, locator1 := false, locator2 := false, palletPresent := false, plate := 0 }

/-- R178: a line that is closed at the low level, which is off for every input (Table 11-3), and has not been sampled. -/
def LineState.lowLine : LineState := { level := .low, run := 0 }

/-- R178: every line stands at off, which is the value taken (DESIGN CHOICE, assumption 35), and the first samples follow. -/
def Sampling.reset : Sampling :=
  { clock := 0, machClear := .lowLine, emergency := .lowLine, driveFault := .lowLine, home := .lowLine, liftUp := .lowLine
    liftDown := .lowLine, pressure := .lowLine, locator1 := .lowLine, locator2 := .lowLine, palletPresent := .lowLine
    plate := { code := 0, sampled := none, run := 0 } }

/-- R136. -/
def Rst.reset : Rst :=
  { status := .unknown, record := none, outgoing := none, incoming := none, exitQueue := [] }

/-- R146. -/
def Sim.reset : Sim := { slots := [], exitSlot := .unknown }

/-- R160. -/
def Har.reset : Har :=
  { causes := Cause.all.map fun c => { level := c.defaultLevel, pending := false }
    announcedLevel := 0, announcedCause := 0, sectionLevel := 0, attnMask := 127#7 }

/-- R160, R180. -/
def Pins.reset : Pins := { machPermit := false, sectionStop := true, attn := false }

/-- R161, Table 10-1. -/
def Items.reset : Items :=
  { stationNumber := none, sectionId := none, members := none, pitch := none, vmax := 204800, accel := 512
    stopDecel := 1024, homingSpeed := 5120, followLimit := 3000, inposWindow := 200, settleStage := 5
    releaseStepTimeout := 2000, locateTimeout := 2000, clampTimeout := 2000, liftBarrierTimeout := 2000
    lowerTimeout := 2000 }

/-- R174, R180. -/
def Cpt.reset (cause : ResetCause) : Cpt :=
  { response := none, responseRead := false, shifted := [], trailing := 0, resetCause := cause }

end Sys2Proof.Machine
end

