-- ==== Sys2Proof/Machine/State.lean ====
section
/-! DEFINITION. The state of one 740 as plain data, its value after reset, and the reasons a step can stop. -/

namespace Sys2Proof.Machine

/-- The 740 has no fault that stops it: every failure its manual describes is a hold cause, after which it goes on. No
meaning raises a fault, so this type has no constructor (assumption 32). -/
inductive Fault where
  deriving DecidableEq, Repr

/-- Why a command has no meaning. Safe: the machine stops instead of answering a state. -/
inductive Refusal where
  /-- Raised by an arm of `exec` whose command is not modelled yet; no arm is left so. -/
  | notModelled (mnemonic : String)
  deriving DecidableEq, Repr

/-- The state of one 740 and the commands and events that wait for it. -/
structure State where
  lpt : Lpt
  ltu : Ltu
  peers : List Peer
  ixs : Ixs
  pgn : Pgn
  ssv : Ssv
  fxs : Fxs
  inputs : Inputs
  sampling : Sampling
  rst : Rst
  sim : Sim
  har : Har
  pins : Pins
  cpt : Cpt
  items : Items
  /-- The model's own: how many free values have been taken (assumption 4). -/
  freeTaken : Nat
  /-- The model's own: the commands and events that wait, first in, first out. -/
  pending : List Instr
  deriving DecidableEq, Repr

/-- R180: every block at its reset values, by the cause of the reset. -/
def State.resetBy (cause : ResetCause) : State :=
  { lpt := Lpt.reset, ltu := Ltu.reset, peers := [], ixs := Ixs.reset, pgn := Pgn.reset, ssv := Ssv.reset
    fxs := Fxs.reset, inputs := Inputs.reset, sampling := Sampling.reset, rst := Rst.reset, sim := Sim.reset
    har := Har.reset, pins := Pins.reset, cpt := Cpt.reset cause, items := Items.reset, freeTaken := 0, pending := [] }

/-- The machine right after power-on (R180). -/
def State.reset : State := State.resetBy .powerOn

end Sys2Proof.Machine
end

