-- ==== Sys2Proof/Machine/Flags.lean ====
section
/-! DEFINITION. What the 740 computes from its state without changing it: its place in the section, the conditions of the causes
(Table 9-1), the announced pair (R152), the section level (R156) and the outputs that follow from conditions. -/

namespace Sys2Proof.Machine

/-! The station and its section (R163, R166). -/

/-- The station's own number (STATION_NUMBER). -/
def State.stationNo (s : State) : Nat := s.items.stationNumber.getD 0
/-- The station's SECTION_ID. -/
def State.sectionId (s : State) : Nat := s.items.sectionId.getD 0
/-- MEMBERS, upstream first. -/
def State.memberList (s : State) : List Nat := s.items.members.getD []
/-- The number M of members. -/
def State.memberCount (s : State) : Nat := s.memberList.length
/-- The index of the station in MEMBERS, from 0; its member position is one more. -/
def State.ownIdx (s : State) : Nat := s.memberList.idxOf s.stationNo
/-- PITCH, in µm. -/
def State.pitch (s : State) : Nat := s.items.pitch.getD 0
/-- R166: the load role, at member position 1. -/
def State.isLoad (s : State) : Bool := s.ownIdx == 0
/-- R166: the unload role, at member position M. -/
def State.isUnload (s : State) : Bool := s.ownIdx + 1 == s.memberCount
/-- The sequencer is in OFFLINE. -/
def State.offline (s : State) : Bool := s.ixs.state == .offline
/-- R36: the number of the index just made. -/
def State.indexMade (s : State) : IndexNo := s.ixs.index - 1
/-- The encoder count as a signed number of µm (R92). -/
def State.encoderCount (s : State) : Int := s.ssv.encoder.toInt

/-- R32: the silence count in ms, none while stopped. -/
def Peer.silenceMs (p : Peer) : Option Nat := p.silence.map (· / 1000)

/-- R32: the member is silent. -/
def Peer.silent (p : Peer) : Bool :=
  match p.silence with
  | some us => decide (Config.silentFrom ≤ us)
  | none => false

/-! Causes. -/

/-- The level a cause has been given (R147). -/
def Har.level (h : Har) (c : Cause) : Nat := (h.causes.getD c.number ⟨0, false⟩).level
/-- Whether a cause is pending. -/
def Har.isPending (h : Har) (c : Cause) : Bool := (h.causes.getD c.number ⟨0, false⟩).pending
/-- A cause of some level is pending. -/
def Har.anyPendingAt (h : Har) (level : Nat) : Bool := h.causes.any fun e => e.pending && e.level == level
/-- R63: a cause of level 6 or 7 is pending. -/
def Har.stopPending (h : Har) : Bool := h.causes.any fun e => e.pending && decide (6 ≤ e.level)

/-- Table 9-1: the condition of a cause; for a latched cause the one against which CLEAR_CAUSE is decided. -/
def State.condition (s : State) : Cause → Bool
  | .foreignFrame => !s.offline && s.lpt.foreignTimer.isSome
  | .exitQueueFull => !s.offline && s.isUnload && s.rst.status == .held
      && decide (Config.exitCapacity ≤ s.rst.exitQueue.length)
  | .fixtureUnknown => !s.offline && s.rst.status == .unknown
  | .notInStep => !s.offline && s.ltu.step != .fine
  | .returnFault => s.ssv.homeCheck && !s.inputs.home
  | .locateFault => !s.fxs.withdraw && !(s.inputs.locator1 && s.inputs.locator2)
  | .clampNotSettled => s.fxs.state == .clamping
  | .palletMissing => false
  | .recordMissing => s.rst.status == .unknown
  | .palletIdentity => s.rst.status == .unknown
  | .imageMismatch => false
  | .profileMismatch => !s.offline && s.peers.any fun p => p.matched == .no
  | .peerSilent => !s.offline && s.peers.any Peer.silent
  | .lineTransmitFailure => false
  | .releaseFault => s.fxs.state == .opening
  | .liftBarrierTimeout => s.ixs.state == .releasing || s.ixs.state == .liftWait
  | .lowerFault => s.ixs.lowerExpired.isSome
  | .machIntrusion => !s.inputs.machClear
  | .stepLostInMotion => s.ltu.step == .none
  | .syncDeviation => false
  | .clampPressureLost => s.fxs.state == .clamping
  | .followingError => decide (s.ssv.encoderQuiet < Config.encoderRest)
  | .driveFault => s.inputs.driveFault
  | .emergency => s.inputs.emergency

/-- R152: the announced pair of causes numbered from `n` on, against the best pair found below `n`. -/
def announcedFrom (n : Nat) (best : Nat × Nat) : List CauseEntry → Nat × Nat
  | [] => best
  | e :: rest => announcedFrom (n + 1) (if e.pending ∧ best.1 ≤ e.level then (e.level, n) else best) rest

/-- R152: the announced level and cause that the pending causes give. -/
def Har.pair (h : Har) : Nat × Nat := announcedFrom 0 (0, 0) h.causes

/-- R156: the highest level recorded for the members other than the one of index `own`, the columns numbered from `n` on. -/
def othersLevel (own n : Nat) : List Peer → Nat
  | [] => 0
  | p :: rest => max (if n = own then 0 else p.level) (othersLevel own (n + 1) rest)

/-- R156: the section level. -/
def State.sectionLevelNow (s : State) : Nat := max s.har.announcedLevel (othersLevel s.ownIdx 0 s.peers)

/-- R116: MACH_PERMIT. -/
def State.machPermitNow (s : State) : Bool :=
  s.ixs.state == .working && s.rst.status == .held && s.fxs.state == .secured
    && decide (s.har.announcedLevel ≤ 3) && decide (s.har.sectionLevel ≤ 5)

/-- R157: SECTION_STOP. -/
def State.sectionStopNow (s : State) : Bool :=
  s.ixs.state == .offline || s.ixs.state == .forming || decide (6 ≤ s.har.sectionLevel)

/-- R158: the mask holds a level from 1 to 7. -/
def maskHolds (mask : BitVec 7) (level : Nat) : Bool := decide (1 ≤ level) && mask.getLsbD (level - 1)

/-- R158: ATTN. -/
def State.attnNow (s : State) : Bool := s.har.causes.any fun e => e.pending && maskHolds s.har.attnMask e.level

/-! Sequencer states that rules name together. -/

/-- R50: the states in which a cause that becomes pending at level 6 or 7 queues STOP. -/
def SeqState.queuesStop : SeqState → Bool
  | .releasing | .liftWait | .moving | .resumeWait => true
  | _ => false

/-- R38: the states in which a forming JOIN clears the READY marks. -/
def SeqState.clearsReady : SeqState → Bool
  | .forming | .working | .ready | .abandoning | .lowering | .seating => true
  | _ => false

/-- R44: the states in which MACH_CLEAR dropping raises MACH_INTRUSION. -/
def SeqState.intrudes : SeqState → Bool
  | .offline | .forming | .working => false
  | _ => true

/-- R26, R31: MOVING or STOPPING. -/
def SeqState.inMotion : SeqState → Bool
  | .moving | .stopping => true
  | _ => false

/-- R125: MOVING, STOPPING, STOPPED and RESUME_WAIT, in which the records of index n are in exchange. -/
def SeqState.exchanging : SeqState → Bool
  | .moving | .stopping | .stopped | .resumeWait => true
  | _ => false

/-! The response buffer (R174, R177). -/

/-- Table 11-5. -/
def Status.code : Status → Nat
  | .done => 0 | .refusedState => 1 | .refusedValue => 2 | .refusedIncomplete => 3 | .refusedActive => 4
  | .refusedIdentity => 5 | .nothing => 6

/-- R177: the octets of a response, its check the last two. -/
def Response.octets (r : Response) : List Byte :=
  let body := [r.kind, BitVec.ofNat 8 r.status.code, BitVec.ofNat 8 r.fields.length] ++ r.fields
  body ++ checkOctets body

/-- R174, R177: what the response buffer gives out; an empty one the kind none. -/
def bufferOctets : Option Response → List Byte
  | some r => r.octets
  | none => [0, 0, 0] ++ checkOctets [0, 0, 0]

/-- R174: the first `n` octets of a transaction, all ones after the last octet of the response. -/
def shiftOut (buffer : Option Response) (n : Nat) : List Byte :=
  (bufferOctets buffer ++ List.replicate n 255#8).take n

/-! Frames (R14). -/

/-- R14: an observed frame is foreign; `own` says that the station sent it. -/
def State.foreign (s : State) (h : Header) (own : Bool) : Bool :=
  h.sectionId != s.sectionId || !s.memberList.contains h.sender || (h.sender == s.stationNo && !own)

/-- R2, R10, R14: the observed frame is the attempt in the station's transmit buffer, bit for bit. -/
def State.isOwnAttempt (s : State) (f : Frame) : Bool :=
  match s.lpt.buffer, s.lpt.frame with
  | some q, some c => q.payload == f.payload && f.header.sender == s.stationNo && f.header.sectionId == s.sectionId
      && f.header.stamp == c.localStart
  | _, _ => false

/-- R1: the station takes part in the frame on the link. -/
def State.takesPart (s : State) : Bool := s.lpt.idleSeen && s.lpt.frame.isSome

/-- R2: the station's own attempt has lost arbitration to this frame, whose identifier is the lower one. -/
def State.losesTo (s : State) (f : Frame) : Bool :=
  match s.lpt.buffer with
  | some q => decide (frameIdentifier f < q.payload.kind.priority * 64 + s.stationNo)
  | none => false

/-- R2, R4: a station that sends, with arbitration not lost, reads back other bits than its own in this frame. -/
def State.readBackFault (s : State) (f : Frame) : Bool := s.lpt.buffer.isSome && !s.isOwnAttempt f

/-- R4: the station finds a fault in this frame. -/
def State.findsFault (s : State) (f : Frame) : Bool := !frameInRange f || s.readBackFault f

end Sys2Proof.Machine
end

