-- ==== Sys2Proof/Machine/Profile.lean ====
section
/-! DEFINITION. The Profile Generator (Motion Profiles): the profile procedure, the preparation of each kind of profile, the
stop ramp, and the end of one period. Velocities, accelerations and distances are q8. -/

namespace Sys2Proof.Machine

/-! The profile procedure (R67, R68). -/

/-- What the procedure builds from a distance, a velocity limit and an acceleration. -/
structure Plan where
  nAccel : Nat
  vPeak : Nat
  nCruise : Nat
  creep : Nat
  creepPeriod : Option Nat
  periods : Nat
  deriving DecidableEq, Repr

/-- R67.2: the largest number no greater than the bound whose square times `accel` is no greater than `dist`. -/
def accelPeriods (accel dist : Nat) : Nat → Nat
  | 0 => 0
  | n + 1 => if (n + 1) * (n + 1) * accel ≤ dist then n + 1 else accelPeriods accel dist n

/-- R68: the place of the creep period. -/
def creepPlace (accel na nc r : Nat) : Nat :=
  let k := (r + accel - 1) / accel
  if k ≤ na - 1 then na + nc + (na - k) + 1 else na + nc + 1

/-- R67, R68: the profile procedure. -/
def plan (dist vLimit accel : Nat) : Plan :=
  if dist = 0 then ⟨0, 0, 0, 0, none, 0⟩
  else
    let na := accelPeriods accel dist (vLimit / accel)
    if na = 0 then ⟨0, 0, 0, 0, none, 1⟩
    else
      let vp := na * accel
      let rest := dist - accel * na * na
      let nc := rest / vp
      let r := rest - nc * vp
      if r = 0 then ⟨na, vp, nc, 0, none, 2 * na - 1 + nc⟩
      else ⟨na, vp, nc, r, some (creepPlace accel na nc r), 2 * na - 1 + nc + 1⟩

/-- R67.3, Table 4-2: the velocity of period `i` (1 to N) of a profile of distance `dist` and acceleration `accel`. -/
def planVelocity (dist accel : Nat) (pl : Plan) (i : Nat) : Nat :=
  if pl.nAccel = 0 then dist
  else if i ≤ pl.nAccel then i * accel
  else if i ≤ pl.nAccel + pl.nCruise then pl.vPeak
  else if pl.creepPeriod = some i then pl.creep
  else
    let passed := match pl.creepPeriod with
      | some c => if c < i then 1 else 0
      | none => 0
    (pl.nAccel - (i - pl.nAccel - pl.nCruise - passed)) * accel

/-! The descriptor of Table 4-1. -/

/-- The plan held in the descriptor. -/
def Pgn.plan (p : Pgn) : Plan := ⟨p.nAccel, p.vPeak, p.nCruise, p.creep, p.creepPeriod, p.periods⟩

/-- R70: fills the descriptor and enters WAITING, counter, velocity and accumulator at 0. -/
def Pgn.fill (p : Pgn) (kind : PgnKind) (dist vLimit accel : Nat) : Pgn :=
  let pl := Machine.plan dist vLimit accel
  { p with phase := .waiting, kind := kind, distance := dist, vLimit := vLimit, accel := accel, nAccel := pl.nAccel
           vPeak := pl.vPeak, nCruise := pl.nCruise, creep := pl.creep, creepPeriod := pl.creepPeriod
           periods := pl.periods, begun := false, counter := 0, velocity := 0, acc := 0, rampFrom := none
           localTimer := none, stepFrom := none }

/-- R70, R71: the forward and resume profiles run on line time and are common to the section. -/
def PgnKind.common : PgnKind → Bool
  | .forward | .resume => true
  | _ => false

/-- R73: the kinds that run on elapsed time. -/
def PgnKind.localKind : PgnKind → Bool
  | .ret | .reposition | .homing => true
  | _ => false

/-- R76: the kind that a POSITION frame carries; a homing run is reported as a reposition. -/
def PgnKind.code : PgnKind → ProfileCode
  | .forward => .forward
  | .resume => .resume
  | .ret => .ret
  | _ => .reposition

/-- Table 4-1: the stop setpoint, the stop position divided by 256 and rounded down. -/
def Pgn.stopSetpoint (p : Pgn) : Option Nat := p.stopPosition.map (· / 256)

/-- A time in µs rounded up to a multiple of 1,000 µs. -/
def roundUpMs (t : Nat) : Nat := (t + 999) / 1000 * 1000

/-- R48, R64: the origin of a common profile, from the stamp of the completing frame, modulo 2^32. -/
def originOf (stamp : LineTime) : LineTime := BitVec.ofNat 32 (roundUpMs stamp.toNat + Config.originLead)

/-- R73: the origin of a local profile prepared at a line time. -/
def localOrigin (lineTime : LineTime) : LineTime := BitVec.ofNat 32 (roundUpMs lineTime.toNat + 1000)

/-- R73: the elapsed time from the preparation of a local profile to its origin. -/
def localWait (lineTime : LineTime) : Nat := roundUpMs lineTime.toNat + 1000 - lineTime.toNat

/-- R70, R71: prepares the forward profile over the pitch. -/
def Pgn.prepareForward (p : Pgn) (pitch vmax accel : Nat) (origin : LineTime) : Pgn :=
  { p.fill .forward (pitch * 256) vmax accel with origin := origin, base := 0, setpoint := 0 }

/-- R81: prepares the resume profile from the stop position to the pitch. -/
def Pgn.prepareResume (p : Pgn) (pitch vmax accel : Nat) (origin : LineTime) : Pgn :=
  let base := p.stopPosition.getD 0
  { p.fill .resume (pitch * 256 - base) vmax accel with origin := origin, base := base, setpoint := (base / 256 : Nat) }

/-- R73, R82, R83: prepares a return or a reposition from `start` to `target`, the current setpoint set to `start`. The base is that of
the last common profile still (DESIGN CHOICE, assumption 38). -/
def Pgn.prepareMove (p : Pgn) (kind : PgnKind) (start target : Int) (vLimit accel : Nat) (lineTime : LineTime) : Pgn :=
  { p.fill kind ((target - start).natAbs * 256) vLimit accel with
    origin := localOrigin lineTime, start := start, up := decide (start < target), setpoint := start
    localTimer := some (localWait lineTime) }

/-- R84: prepares the homing run, toward lower positions from the encoder count; it has no distance, and the base is that of the last
common profile still (DESIGN CHOICE, assumption 38). -/
def Pgn.prepareHoming (p : Pgn) (start : Int) (homingSpeed accel : Nat) (lineTime : LineTime) : Pgn :=
  { p.fill .homing 0 homingSpeed accel with
    origin := localOrigin lineTime, start := start, up := false, setpoint := start
    localTimer := some (localWait lineTime) }

/-- R85, R94: a halt ends a local profile, the setpoint held; a common profile or its ramp runs on. -/
def Pgn.halt (p : Pgn) : Pgn :=
  if p.kind.localKind then { p with phase := .idle, localTimer := none } else p

/-- R77, R84: the first period that has not yet begun: the second after the last ended. While a profile catches up (R71), the periods whose
beginnings line time has passed but whose turn has not come have not begun (DESIGN CHOICE, assumption 43). -/
def Pgn.nextPeriod (p : Pgn) : Nat := if p.begun then p.counter + 2 else 1

/-- R56, R77, R80: replaces the periods from `j` on with a stop ramp, or from the first period that has not yet begun. -/
def Pgn.ramp (p : Pgn) (j : Nat) : Pgn :=
  if p.phase = .ramping then p
  else { p with phase := .ramping, rampFrom := some (max j p.nextPeriod) }

/-- R84, R89: a homing run ramps down from the period after the one in progress, its phase still RUNNING (DEDUCED,
assumption 26). -/
def Pgn.windDown (p : Pgn) : Pgn := { p with rampFrom := some p.nextPeriod }

/-- R88: the home edge moves the start position and the current setpoint by the change of the encoder count. -/
def Pgn.rebase (p : Pgn) (change : Int) : Pgn :=
  { p with start := p.start + change, setpoint := p.setpoint + change }

/-! The end of a period (R71, R74, R78, R79, R84). -/

/-- How a period ended. -/
inductive PeriodOutcome where
  | goesOn
  /-- R75: period N of a profile that no ramp replaced. -/
  | completed
  /-- R79, R84: the first period of velocity 0 of a stop ramp or of a homing run's ramp. -/
  | rampEnded
  deriving DecidableEq, Repr

/-- The period about to end belongs to a ramp. -/
def Pgn.inRamp (p : Pgn) : Bool :=
  match p.rampFrom with
  | some j => decide (j ≤ p.counter + 1)
  | none => false

/-- Table 4-3: the setpoint after an accumulator value. -/
def Pgn.setpointAt (p : Pgn) (acc : Nat) : Int :=
  match p.kind with
  | .forward | .resume => ((p.base + acc) / 256 : Nat)
  | .reposition => if p.up then p.start + (acc / 256 : Nat) else p.start - (acc / 256 : Nat)
  | _ => p.start - (acc / 256 : Nat)

/-- R84: the velocity of creep period `i` of a homing run. -/
def Pgn.creepVelocity (p : Pgn) (i : Nat) : Nat := min (i * p.accel) p.vLimit

/-- R78: the velocity of a ramp period. -/
def Pgn.rampVelocity (p : Pgn) (stopDecel : Nat) : Nat := p.velocity - stopDecel

/-- A period of a homing run. -/
def Pgn.endHomingPeriod (p : Pgn) (stopDecel : Nat) : Pgn × PeriodOutcome :=
  let v := if p.inRamp then p.rampVelocity stopDecel else p.creepVelocity (p.counter + 1)
  let q := { p with velocity := v, acc := p.acc + v, counter := p.counter + 1, setpoint := p.setpointAt (p.acc + v) }
  if p.inRamp ∧ v = 0 then ({ q with phase := .idle, localTimer := none }, .rampEnded) else (q, .goesOn)

/-- R78, R79: a period of a stop ramp; the position is limited to the pitch. -/
def Pgn.endRampPeriod (p : Pgn) (stopDecel pitch : Nat) : Pgn × PeriodOutcome :=
  let v := p.rampVelocity stopDecel
  let pos := min (p.base + p.acc + v) (pitch * 256)
  let q := { p with velocity := v, acc := pos - p.base, counter := p.counter + 1, setpoint := (pos / 256 : Nat) }
  if v = 0 then ({ q with phase := .idle, stopPosition := some pos }, .rampEnded) else (q, .goesOn)

/-- R75: the completion enters IDLE; that of a common profile sets the stop position to none. -/
def Pgn.complete (p : Pgn) : Pgn :=
  { p with phase := .idle, localTimer := none, stopPosition := if p.kind.common then none else p.stopPosition }

/-- R71, R75: a period of a profile. Once a ramp has replaced the remaining periods, period N completes nothing (R77). -/
def Pgn.endProfilePeriod (p : Pgn) : Pgn × PeriodOutcome :=
  let v := planVelocity p.distance p.accel p.plan (p.counter + 1)
  let q := { p with velocity := v, acc := p.acc + v, counter := p.counter + 1, setpoint := p.setpointAt (p.acc + v) }
  if p.phase = .running ∧ p.periods ≤ p.counter + 1 then (q.complete, .completed) else (q, .goesOn)

/-- The end of the period in progress. -/
def Pgn.endPeriod (p : Pgn) (stopDecel pitch : Nat) : Pgn × PeriodOutcome :=
  if p.kind = .homing then p.endHomingPeriod stopDecel
  else if p.inRamp then p.endRampPeriod stopDecel pitch
  else p.endProfilePeriod

/-- R56: the ramp start period of a stop stamp: the smallest period whose start is at or later than the stamp + 2,000 µs,
by signed differences of line times (DEDUCED, assumption 23). -/
def rampStart (origin stopStamp : LineTime) : Nat :=
  let d := ((stopStamp + BitVec.ofNat 32 Config.stopLead) - origin).toInt
  if d ≤ 0 then 1 else ((d.toNat + 999) / 1000) + 1

end Sys2Proof.Machine
end

