-- ==== Sys2Proof/Machine/Ops.lean ====
section
/-! DEFINITION. The shared operations over one block: the transmit queue and buffer (R6, R9 to R11), the peer table, the timers,
the lift, and the answers of the Cell Port. -/

namespace Sys2Proof.Machine

/-! The transmit queue (R9, R10, R11). -/

/-- R9: a frame put in its place by kind priority; a frame of its kind is replaced. -/
def insertFrame (f : QueuedFrame) : List QueuedFrame → List QueuedFrame
  | [] => [f]
  | g :: rest =>
    if f.payload.kind.priority < g.payload.kind.priority then f :: g :: rest
    else if f.payload.kind.priority = g.payload.kind.priority then f :: rest
    else g :: insertFrame f rest

/-- R10: a frame whose attempt was not observed goes back, unless the queue holds a newer frame of its kind. -/
def putBack (f : QueuedFrame) (q : List QueuedFrame) : List QueuedFrame :=
  if q.any (fun g => g.payload.kind == f.payload.kind) then q else insertFrame f q

/-- R9: queues a frame, which starts afresh under an id of the model's own (R6, assumption 25). -/
def Lpt.enqueue (l : Lpt) (p : Payload) : Lpt :=
  { l with queue := insertFrame ⟨l.nextId, p⟩ l.queue, nextId := l.nextId + 1 }

/-- R11: withdraws the frames that `sel` selects: at once from the queue, held over an attempt in progress. -/
def Lpt.withdraw (l : Lpt) (sel : Payload → Bool) : Lpt :=
  { l with queue := l.queue.filter fun f => !sel f.payload
           withdrawHeld := l.withdrawHeld || l.buffer.any fun f => sel f.payload }

/-- A frame that `sel` selects is in the transmit queue or in the transmit buffer. -/
def Lpt.holds (l : Lpt) (sel : Payload → Bool) : Bool :=
  (l.queue.any fun f => sel f.payload) || l.buffer.any fun f => sel f.payload

/-- R10: the station starts its frame of highest kind priority, at a line time. -/
def Lpt.startOwn (l : Lpt) (now : LineTime) : Lpt :=
  match l.queue with
  | f :: rest => { l with queue := rest, buffer := some f, withdrawHeld := false, frame := some ⟨now, 0⟩ }
  | [] => l

/-- R10, R11: the attempt in progress ends without an observation; a held withdrawal discards its frame. -/
def Lpt.giveUp (l : Lpt) : Lpt :=
  match l.buffer with
  | some f => { l with buffer := none, withdrawHeld := false
                       queue := if l.withdrawHeld then l.queue else putBack f l.queue }
  | none => l

/-- R6: the repeat count of a frame after one more marked attempt; a frame becomes the counted one when its attempt ends
(DEDUCED, assumption 12). -/
def Lpt.countAfterMark (l : Lpt) (f : QueuedFrame) : Nat :=
  if l.counted = some f.id then l.count + 1 else 1

/-- R5, R6: the frame on the link is marked. Answers also the own frame that this removes, if any. -/
def Lpt.mark (l : Lpt) : Lpt × Option Payload :=
  match l.buffer with
  | some f =>
    if l.countAfterMark f < Config.repeatLimit then
      ({ l.giveUp with frame := none, counted := some f.id, count := l.countAfterMark f }, none)
    else
      ({ l with buffer := none, withdrawHeld := false, frame := none, counted := none, count := 0 }, some f.payload)
  | none => ({ l with frame := none }, none)

/-- R6, R10: the frame on the link is observed; an own attempt leaves the buffer and sets the count to 0. -/
def Lpt.observed (l : Lpt) (own : Bool) : Lpt :=
  if own then { l with buffer := none, withdrawHeld := false, frame := none, counted := none, count := 0 }
  else { l with frame := none }

/-- Selects the frames of a kind. -/
def ofKind (k : FrameKind) (p : Payload) : Bool := p.kind == k

/-- Selects STOP of an index (R50). -/
def isStopOf (n : IndexNo) : Payload → Bool
  | .stop i _ _ => i == n
  | _ => false

/-- Queues a frame through the Line Port. -/
def State.queueFrame (s : State) (p : Payload) : State := { s with lpt := s.lpt.enqueue p }

/-- Withdraws frames through the Line Port. -/
def State.withdraw (s : State) (sel : Payload → Bool) : State := { s with lpt := s.lpt.withdraw sel }

/-! Frames of the station (Table 1-5). -/

/-- R167: the station's JOIN with the content of this instant. -/
def State.joinPayload (s : State) : Payload :=
  .join { pitch := s.pitch, vmax := s.items.vmax, accel := s.items.accel, stopDecel := s.items.stopDecel
          members := s.memberCount, index := s.ixs.index, forming := s.ixs.state == .forming
          level := s.har.announcedLevel, cause := s.har.announcedCause }

/-- R122: the forecast verdict of a record. -/
def forecast (r : PalletRecord) (result : Option MachResult) : Verdict :=
  match result with
  | some x => worseVerdict r.verdict (resultVerdict x)
  | none => r.verdict

/-- R42, R122: the station's READY with the content of this instant. -/
def State.readyPayload (s : State) : Payload :=
  match s.rst.record with
  | some r => .ready { index := s.ixs.index, pallet := r.id, variant := r.variant
                       verdict := forecast r s.ixs.pendingResult, status := s.rst.status }
  | none => .ready { index := s.ixs.index, pallet := 0, variant := 0, verdict := .good, status := s.rst.status }

/-- R50: the station's STOP for its index, naming a cause number. -/
def State.stopPayload (s : State) (cause : Nat) : Payload := .stop s.ixs.index cause s.har.announcedLevel

/-! The peer table. -/

/-- A list with its element of index `i` changed. -/
def updateAt {α : Type} (f : α → α) : Nat → List α → List α
  | _, [] => []
  | 0, a :: rest => f a :: rest
  | i + 1, a :: rest => a :: updateAt f i rest

/-- Changes the peer record of the member of index `i`. -/
def State.updatePeer (s : State) (i : Nat) (f : Peer → Peer) : State := { s with peers := updateAt f i s.peers }

/-- Changes every peer record. -/
def State.updatePeers (s : State) (f : Peer → Peer) : State := { s with peers := s.peers.map f }

/-- Clears all READY marks. -/
def State.clearReady (s : State) : State := s.updatePeers fun p => { p with ready := false }
/-- Clears all LIFTED marks. -/
def State.clearLifted (s : State) : State := s.updatePeers fun p => { p with lifted := false }
/-- Clears all RESUME marks. -/
def State.clearResume (s : State) : State := s.updatePeers fun p => { p with resume := false }

/-! The sequencer, the shuttle and the lift. -/

/-- Enters a sequencer state. -/
def State.enter (s : State) (st : SeqState) : State := { s with ixs := { s.ixs with state := st } }

/-- Goes to a step within the sequencer state; a wait that is passed ends the condition of LOWER_FAULT (R61). -/
def State.goStep (s : State) (st : IndexStep) : State := { s with ixs := { s.ixs with step := st, lowerExpired := none } }

/-- R87, R95: a command or report moves the shuttle; while HALTED it changes halted-from instead. -/
def State.moveShuttle (s : State) (st : ShuttleState) : State :=
  if s.ssv.shuttle = .halted then { s with ssv := { s.ssv with haltedFrom := some st } }
  else { s with ssv := { s.ssv with shuttle := st } }

/-- R91: the lift is commanded raised. -/
def Ssv.raiseLift (v : Ssv) : Ssv :=
  { v with lift := true
           liftState := if v.liftState = .up ∨ v.liftState = .rising then v.liftState else .rising }

/-- R91: the lift is commanded lowered. -/
def Ssv.lowerLift (v : Ssv) : Ssv :=
  { v with lift := false
           liftState := if v.liftState = .down ∨ v.liftState = .falling then v.liftState else .falling }

/-- R88, R89, R90: no part of a homing sequence or home check remains. -/
def Ssv.endHoming (v : Ssv) : Ssv :=
  { v with homingTimer := none, homeCheckTimer := none, homeCheck := false, homingStage := .none }

/-- R83, R73: has the PGN prepare a reposition from the encoder count. -/
def State.reposition (s : State) (use : RepositionUse) (target : Int) : State :=
  { s with
    pgn := s.pgn.prepareMove .reposition s.encoderCount target s.items.homingSpeed s.items.accel s.ltu.lineTime
    ssv := { s.ssv with repositionTarget := some target, repositionUse := some use } }

/-- R82: has the PGN prepare a return from a start position. -/
def State.returnFrom (s : State) (start : Int) : State :=
  { s with pgn := s.pgn.prepareMove .ret start 0 s.items.vmax s.items.accel s.ltu.lineTime
           ssv := { s.ssv with repositionTarget := none, repositionUse := none } }

/-! The Cell Port (R174). -/

/-- The response to a request of `own` octets replaces the content of the response buffer. Its transaction, of these octets and those
that the controller clocks after them, has shifted out the buffer as it stood (assumption 14). -/
def State.respond (s : State) (own : Nat) (kind : Byte) (status : Status) (fields : List Byte) : State :=
  { s with cpt := { s.cpt with
      response := some ⟨kind, status, fields⟩, responseRead := false
      shifted := shiftOut s.cpt.response (own + s.cpt.trailing) } }

/-- R174: a refused request's response carries no fields. -/
def State.refuse (s : State) (own : Nat) (kind : Byte) (status : Status) : State := s.respond own kind status []

/-- The answer of a meaning: every command and event has a next state. -/
abbrev Answer := Host.Outcome State Fault Refusal

end Sys2Proof.Machine
end

