-- ==== Sys2Proof/Machine/Hold.lean ====
section
/-! DEFINITION. The Hold Arbiter (Hold Causes and Stop Levels) and what a change of a cause brings about at once: the announced
pair and HOLD (R152, R153), the withdrawal of READY (R43), STOP (R50), the drop of the drive (R94) and the restart (R95). -/

namespace Sys2Proof.Machine

/-- Sets whether a cause is pending. -/
def Har.setPending (h : Har) (c : Cause) (b : Bool) : Har :=
  { h with causes := h.causes.set c.number ⟨h.level c, b⟩ }

/-- R43, R11: at an announced level of 4 or higher READY is withdrawn, and a station in READY returns to WORKING. -/
def State.leaveReady (s : State) : State :=
  let s := s.withdraw (ofKind .ready)
  if s.ixs.state = .ready then s.enter .working else s

/-- R153: a JOIN of the station in the transmit queue or buffer is queued again with the new pair. -/
def State.renewJoin (s : State) : State :=
  if s.lpt.holds (ofKind .join) then s.queueFrame s.joinPayload else s

/-- R152, R153: the announced pair is formed anew; its change queues HOLD, and a level of 4 or higher acts as R43 gives. -/
def State.announce (s : State) : State :=
  let pair := s.har.pair
  if pair = (s.har.announcedLevel, s.har.announcedCause) then s
  else
    let s := { s with har := { s.har with announcedLevel := pair.1, announcedCause := pair.2 } }
    let s := (s.queueFrame (.hold pair.1 pair.2)).renewJoin
    if 4 ≤ pair.1 then s.leaveReady else s

/-- R50: queues STOP for the station's index, naming a cause number. -/
def State.queueStop (s : State) (cause : Nat) : State := s.queueFrame (s.stopPayload cause)

/-- R85, R94: the drive is dropped, the shuttle HALTED, a local profile ended, and the homing and home check timers stopped. With its timer
a home check ends, so that the condition of RETURN_FAULT is absent from then on (DESIGN CHOICE, assumption 41). The reposition target stays
(DESIGN CHOICE, assumption 44). -/
def State.dropDrive (s : State) : State :=
  if s.ssv.shuttle = .halted then { s with ssv := { s.ssv with drive := false } }
  else { s with
    ssv := { s.ssv.endHoming with drive := false, haltedFrom := some s.ssv.shuttle, shuttle := .halted }
    pgn := s.pgn.halt }

/-- R148, R149: a cause of level 1 or more becomes pending, outside OFFLINE; a pending cause or one of level 0 is left. At level 6
or 7 it queues STOP in the states of R50, and at level 7 it drops the drive. -/
def State.raise (s : State) (c : Cause) : State :=
  if s.offline ∨ s.har.level c = 0 ∨ s.har.isPending c then s
  else
    let level := s.har.level c
    let s := { s with har := s.har.setPending c true }.announce
    let s := if 6 ≤ level ∧ s.ixs.state.queuesStop then s.queueStop c.number else s
    if level = 7 then s.dropDrive else s

/-- Table 5-4: leaves HALTED for a shuttle state, the drive asserted. -/
def State.driveOn (s : State) (st : ShuttleState) : State :=
  { s with ssv := { s.ssv with drive := true, shuttle := st, haltedFrom := none } }

/-- R95, Table 5-4: the restart from HALTED. A reposition that is not run again loses its target, a homing keeps it in UNHOMED (DESIGN CHOICE,
assumption 44). -/
def State.restart (s : State) : State :=
  if s.ssv.shuttle ≠ .halted then s
  else
    match s.ssv.haltedFrom with
    | some .atHome => (s.driveOn .returning).reposition .toHome 0
    | some .returning =>
      if 0 < s.encoderCount then (s.driveOn .returning).returnFrom s.encoderCount
      else (s.driveOn .returning).reposition .toHome 0
    | some .atEnd => (s.driveOn .repositioning).reposition .toPitch s.pitch
    | some .repositioning =>
      if s.ssv.repositionUse = some .toPitch then (s.driveOn .repositioning).reposition .toPitch s.pitch
      else { s with ssv := { s.ssv with haltedFrom := some .haltedMid, repositionTarget := none, repositionUse := none } }
    | some .unhomed | some .homing => { s with ssv := { s.ssv with shuttle := .unhomed, haltedFrom := none } }
    | _ => s

/-- R148, R149, R155: a cause stops being pending; when it was the last one of level 7, the shuttle restarts. -/
def State.unpend (s : State) (c : Cause) : State :=
  if s.har.isPending c then
    let level := s.har.level c
    let s := { s with har := s.har.setPending c false }.announce
    if level = 7 ∧ !s.har.anyPendingAt 7 then s.restart else s
  else s

/-- R148: a self-clearing cause of level 1 or more is pending exactly while its condition is present. -/
def State.refreshCause (s : State) (c : Cause) : State :=
  if s.condition c then s.raise c else s.unpend c

/-- R148: the self-clearing causes, in the order of their numbers (DESIGN CHOICE, assumption 6). -/
def State.refreshCauses (s : State) : State := Cause.selfClearing.foldl State.refreshCause s

/-- R156, R157, R158, R116: the section level and the outputs that follow from conditions. -/
def State.refreshPins (s : State) : State :=
  let s := { s with har := { s.har with sectionLevel := s.sectionLevelNow } }
  { s with pins := { machPermit := s.machPermitNow, sectionStop := s.sectionStopNow, attn := s.attnNow } }

/-- The end of a command or event: what follows at once from the state it leaves. The block that owns the event has acted before it, in the
levels and causes that the command found (DESIGN CHOICE, assumption 47). -/
def State.close (s : State) : State := s.refreshCauses.refreshPins

end Sys2Proof.Machine
end

