-- ==== Sys2Proof/Machine/Fixture.lean ====
section
/-! DEFINITION. The Fixture Sequencer (Fixture Release, Location and Clamping): the two commands and the steps of opening and
seating, and what the Index Sequencer does on a report of OPEN or SECURED, or of the lift UP. -/

namespace Sys2Proof.Machine

/-- R104: both locators engaged. -/
def Inputs.bothOn (i : Inputs) : Bool := i.locator1 && i.locator2
/-- R107: both locator-engaged sensors taken as off. -/
def Inputs.bothOff (i : Inputs) : Bool := !i.locator1 && !i.locator2

/-- R107: opening step 2 ends when both locators are off. -/
def Fxs.checkOpen (f : Fxs) (i : Inputs) : Fxs :=
  if i.bothOff then { f with state := .open, openingStep := .none, stepTimer := none } else f

/-- R107: enters opening step 2, which may end at once. -/
def Fxs.openStep2 (f : Fxs) (i : Inputs) (timeout : Nat) : Fxs :=
  { f with openingStep := .two, withdraw := true, stepTimer := some timeout }.checkOpen i

/-- R106: enters opening step 1, which ends at once when the pressure is off already. The clamp timer, which runs from RELEASE
de-energised to SECURED (Table 6-1), is stopped (assumption 17). -/
def Fxs.openStep1 (f : Fxs) (i : Inputs) (timeout : Nat) : Fxs :=
  let g : Fxs := { f with state := .opening, openingStep := .one, release := true, settle := 0, marks := 0
                          stepTimer := some timeout, clampTimer := none }
  if i.pressure then g else g.openStep2 i timeout

/-- Table 6-3: the open command. -/
def Fxs.commandOpen (f : Fxs) (i : Inputs) (timeout : Nat) : Fxs :=
  match f.state with
  | .open | .opening => f
  | .locating | .clamping | .secured => f.openStep1 i timeout

/-- R110: leaves LOCATING for CLAMPING; `timeout` is none in OFFLINE, where the fixture settles without timers (R117). -/
def Fxs.beginClamping (f : Fxs) (timeout : Option Nat) : Fxs :=
  { f with state := .clamping, release := false, stepTimer := none, clampTimer := timeout }

/-- R109: enters LOCATING, which ends at once when both locators are engaged already. -/
def Fxs.beginLocating (f : Fxs) (i : Inputs) (locate clamp : Nat) : Fxs :=
  let g : Fxs := { f with state := .locating, openingStep := .none, withdraw := false, stepTimer := some locate }
  if i.bothOn then g.beginClamping (some clamp) else g

/-- Table 6-3: the seat command. -/
def Fxs.commandSeat (f : Fxs) (i : Inputs) (locate clamp : Nat) : Fxs :=
  match f.state with
  | .open | .opening => f.beginLocating i locate clamp
  | .locating => { f with stepTimer := some (f.stepTimer.getD locate) }
  | .clamping => { f with clampTimer := some (f.clampTimer.getD clamp) }
  | .secured => f

/-- R111: the settle counter and every mark are cleared. -/
def Fxs.clearMarks (f : Fxs) : Fxs := { f with settle := 0, marks := 0 }

/-- R106, R113: what the pressure taken as off does to the fixture. -/
def Fxs.pressureOff (f : Fxs) (i : Inputs) (timeout : Nat) : Fxs :=
  match f.state, f.openingStep with
  | .opening, .one => f.openStep2 i timeout
  | .clamping, _ => f.clearMarks
  | .secured, _ => { f.clearMarks with state := .clamping }
  | _, _ => f

/-- R111: the settle counter counts. -/
def Fxs.settling (f : Fxs) (i : Inputs) : Bool :=
  (f.state == .clamping || f.state == .secured) && i.pressure

/-- R110, R111: the counter reaches the threshold of the next mark, which is set; at SETTLE_STAGE marks or more a CLAMPING fixture
is SECURED (DESIGN CHOICE, assumption 16). -/
def Fxs.setMark (f : Fxs) (stage : Nat) : Fxs :=
  let g : Fxs := { f with settle := Config.settleThreshold (f.marks + 1) * 1000, marks := f.marks + 1 }
  if f.state = .clamping ∧ stage ≤ f.marks + 1 then { g with state := .secured, clampTimer := none } else g

/-- R53, R60: the fixture is SECURED with the status HELD or UNKNOWN, or OPEN with the status EMPTY. -/
def State.fixtureSettled (s : State) : Bool :=
  (s.fxs.state == .secured && s.rst.status != .empty) || (s.fxs.state == .open && s.rst.status == .empty)

/-- R47: with the lift UP in RELEASING, LIFTED is queued and the station enters LIFT_WAIT. -/
def State.liftReported (s : State) : State :=
  if s.ixs.state = .releasing ∧ s.ssv.liftState = .up then (s.queueFrame (.lifted s.ixs.index)).enter .liftWait else s

/-- The station enters WORKING from SEATING or ABANDONING (R53, R60). -/
def State.enterWorking (s : State) : State := (s.goStep .none).enter .working

/-- What the Index Sequencer does on a report of OPEN or SECURED (R47, R53, R60). -/
def State.fixtureReported (s : State) : State :=
  match s.ixs.state, s.ixs.step with
  | .releasing, _ =>
    if s.fxs.state = .open then { s with ssv := s.ssv.raiseLift }.liftReported else s
  | .seating, .seat => if s.fixtureSettled then s.enterWorking else s
  | .abandoning, .abandonSeat => if s.fixtureSettled then s.enterWorking else s
  | _, _ => s

/-- The open command (R105), and the report of OPEN where the fixture is open at once. -/
def State.openFixture (s : State) : State :=
  { s with fxs := s.fxs.commandOpen s.inputs (Config.timeout s.items.releaseStepTimeout) }.fixtureReported

/-- The seat command (R105), and the report of SECURED where the fixture is secured already. -/
def State.seatFixture (s : State) : State :=
  { s with fxs := s.fxs.commandSeat s.inputs (Config.timeout s.items.locateTimeout)
                    (Config.timeout s.items.clampTimeout) }.fixtureReported

/-- R114: an EMPTY fixture that is LOCATING, CLAMPING or SECURED is opened; an OPEN or OPENING one is left. -/
def State.keepOpen (s : State) : State := s.openFixture

end Sys2Proof.Machine
end

