-- ==== Sys2Proof/Machine/Records.lean ====
section
/-! DEFINITION. The Record Store (Pallet Records) and the Section Image (The Section Image). -/

namespace Sys2Proof.Machine

/-! The pallet record. -/

/-- R119: an entry appended to an operation list; the oldest of 16 is removed first. -/
def appendOp (ops : List OpEntry) (e : OpEntry) : List OpEntry :=
  if Config.opsCapacity ≤ ops.length then ops.drop (ops.length + 1 - Config.opsCapacity) ++ [e] else ops ++ [e]

/-- R119: a result appended to a record by a station. -/
def appendResult (r : PalletRecord) (station : Nat) (result : MachResult) : PalletRecord :=
  { r with ops := appendOp r.ops ⟨station, result⟩
           truncated := r.truncated || decide (Config.opsCapacity ≤ r.ops.length)
           verdict := worseVerdict r.verdict (resultVerdict result) }

/-! The seating decision (R126). -/

/-- Table 7-5: fixture status, fixture record and cause, from the incoming slot for the index just made (none, or a record or
the empty marker), pallet present and the plate code. -/
def seatingRow (slot : Option (Option PalletRecord)) (present : Bool) (plate : Nat) :
    FixtureStatus × Option PalletRecord × Option Cause :=
  match slot, present with
  | some (some r), true => if plate = r.id then (.held, some r, none) else (.unknown, none, some .palletIdentity)
  | some (some _), false => (.empty, none, some .palletMissing)
  | some none, false => (.empty, none, none)
  | some none, true => (.unknown, none, some .recordMissing)
  | none, true => (.unknown, none, some .recordMissing)
  | none, false => (.empty, none, some .recordMissing)

/-- R126: what the incoming slot holds for an index. -/
def Rst.slotFor (r : Rst) (index : IndexNo) : Option (Option PalletRecord) :=
  match r.incoming with
  | some i => if i.index = index then some i.content else none
  | none => none

/-- R120: sets the fixture status and the fixture record. -/
def State.setFixture (s : State) (status : FixtureStatus) (record : Option PalletRecord) : State :=
  { s with rst := { s.rst with status := status, record := record } }

/-- Raises a cause, if there is one. -/
def State.raiseOpt (s : State) : Option Cause → State
  | some c => s.raise c
  | none => s

/-- R60, R126, R127: the wait in SEATING ends: the upstream timer stops, the decision is made, and the fixture is seated or kept
open. -/
def State.decideSeating (s : State) : State :=
  let row := seatingRow (s.rst.slotFor s.indexMade) s.inputs.palletPresent s.inputs.plate.toNat
  let s := { s with ixs := { s.ixs with upstreamTimer := none } }.goStep .seat
  let s := (s.setFixture row.1 row.2.1).raiseOpt row.2.2
  if row.1 = .empty then s.keepOpen else s.seatFixture

/-! The origin of a forward profile (R54, R123). -/

/-- R123.1: the fixture record with the pending result appended; none with the status not HELD. -/
def State.recordAtOrigin (s : State) : Option PalletRecord :=
  match s.rst.status, s.rst.record, s.ixs.pendingResult with
  | .held, some r, some x => some (appendResult r s.stationNo x)
  | .held, some r, none => some r
  | _, _, _ => none

/-- R54, R123: the station's record moves to the outgoing side, and the fixture status becomes EMPTY. -/
def State.moveRecord (s : State) : State :=
  let content := s.recordAtOrigin
  let s :=
    if s.isUnload then { s with rst := { s.rst with exitQueue := s.rst.exitQueue ++ content.toList } }
    else { s with rst := { s.rst with outgoing := some ⟨s.ixs.index, content, .queued⟩ } }.queueFrame
      (.handover s.ixs.index content)
  let s := { s with ixs := { s.ixs with ownHandover := false, pendingResult := none } }
  (s.setFixture .empty none).keepOpen

/-! The Section Image. -/

/-- Table 8-2: whether a READY frame of the member of index `m` mismatches its slot. -/
def slotMismatch (m : Nat) (slot : Slot) (f : ReadyFields) : Bool :=
  match slot, f.status with
  | .unknown, _ => false
  | _, .unknown => false
  | .empty, .empty => false
  | .empty, .held => m != 0
  | .pallet id _ _, .held => f.pallet != id
  | .pallet .., .empty => true

/-- R140: the content that a READY frame writes. -/
def slotOf (f : ReadyFields) : Slot :=
  match f.status with
  | .held => .pallet f.pallet f.variant f.verdict
  | .empty => .empty
  | .unknown => .unknown

/-- R142: a slot is given up when it holds an id. -/
def dropId (id : Nat) : Slot → Slot
  | .pallet i v w => if i = id then .unknown else .pallet i v w
  | s => s

/-- R140, R142: the image with slot `m` written; an id written is given up in every other slot. -/
def Sim.write (im : Sim) (m : Nat) (content : Slot) : Sim :=
  match content with
  | .pallet id _ _ => { slots := updateAt (fun _ => content) m (im.slots.map (dropId id))
                        exitSlot := dropId id im.exitSlot }
  | _ => { im with slots := updateAt (fun _ => content) m im.slots }

/-- R143: every content moves one place downstream. -/
def Sim.shift (im : Sim) : Sim :=
  { slots := (Slot.empty :: im.slots).take im.slots.length, exitSlot := im.slots.getLastD im.exitSlot }

/-- R138 to R142: a READY frame of the station's index updates the image, comparison first. -/
def State.updateImage (s : State) (m : Nat) (f : ReadyFields) : State :=
  let mismatch := slotMismatch m (s.sim.slots.getD m .unknown) f
  let s := { s with sim := s.sim.write m (slotOf f) }
  if mismatch then s.raise .imageMismatch else s

end Sys2Proof.Machine
end

