-- ==== Sys2Proof/Machine/Sequencer.lean ====
section
/-! DEFINITION. The Index Sequencer (The Index Cycle): release and barriers, stop, motion, lowering and seating. -/

namespace Sys2Proof.Machine

/-- Every member's mark of a kind is set. -/
def State.allMarked (s : State) (mark : Peer → Bool) : Bool := s.peers.all mark

/-! Release and abandonment. -/

/-- R44, R46, R47, R50: the READY barrier is complete, and the station enters RELEASING. Where both STOPs are due at this instant, the
one of the announced level is queued first, and that of MACH_INTRUSION replaces it (DESIGN CHOICE, assumption 36). -/
def State.enterReleasing (s : State) : State :=
  let s := s.updatePeers fun p => { p with lastLowered := none }
  let s := { s with ixs := { s.ixs with liftBarrierTimer := some (Config.timeout s.items.liftBarrierTimeout) } }
  let s := s.enter .releasing
  let s := if 6 ≤ s.har.announcedLevel then s.queueStop s.har.announcedCause else s
  let s := if s.inputs.machClear then s else s.raise .machIntrusion
  s.openFixture

/-- R46: the READY barrier, complete in READY or WORKING at the observation that leaves every READY mark set. -/
def State.checkReadyBarrier (s : State) : State :=
  if (s.ixs.state = .ready ∨ s.ixs.state = .working) ∧ s.allMarked Peer.ready then s.enterReleasing else s

/-- R53 steps 2 and 3: the lift is DOWN in ABANDONING. -/
def State.abandonSeat (s : State) : State :=
  let s := { s with ixs := { s.ixs with loweringTimer := none } }.goStep .abandonSeat
  if s.rst.status = .empty then s.fixtureReported else s.seatFixture

/-- R52, R53: STOP of the station's index in RELEASING or LIFT_WAIT. -/
def State.abandon (s : State) : State :=
  let s := { s with ixs := { s.ixs with liftBarrierTimer := none } }.clearReady.clearLifted
  let s := (s.withdraw (ofKind .lifted)).withdraw (isStopOf s.ixs.index)
  let s := { s with ssv := s.ssv.lowerLift }.enter .abandoning
  if s.ssv.liftState = .down then s.abandonSeat
  else { s with ixs := { s.ixs with loweringTimer := some (Config.timeout s.items.lowerTimeout) } }.goStep .abandonLift

/-! Motion. -/

/-- R48, R50, R64, R87: a common profile has been prepared and the station enters MOVING. A home check still running ends
(assumption 18). -/
def State.startMotion (s : State) (p : Pgn) (origin : LineTime) : State :=
  let s := { s with
    pgn := p
    ssv := { s.ssv.endHoming with repositionTarget := none, repositionUse := none }
    ixs := { s.ixs with origin := some origin, resumeStep := .none } }
  let s := (s.moveShuttle .forward).enter .moving
  if s.har.announcedLevel = 7 then s.queueStop s.har.announcedCause else s

/-- R48: the LIFTED barrier, complete in LIFT_WAIT; `stamp` is that of the completing frame. -/
def State.checkLiftedBarrier (s : State) (stamp : LineTime) : State :=
  if s.ixs.state = .liftWait ∧ s.allMarked Peer.lifted then
    let s := { s with ixs := { s.ixs with liftBarrierTimer := none } }.withdraw (isStopOf s.ixs.index)
    s.startMotion (s.pgn.prepareForward s.pitch s.items.vmax s.items.accel (originOf stamp)) (originOf stamp)
  else s

/-- R64: the RESUME barrier, complete in RESUME_WAIT. -/
def State.checkResumeBarrier (s : State) (stamp : LineTime) : State :=
  if s.ixs.state = .resumeWait ∧ s.allMarked Peer.resume then
    s.startMotion (s.pgn.prepareResume s.pitch s.items.vmax s.items.accel (originOf stamp)) (originOf stamp)
  else s

/-- R56, R77: STOP of the station's index in MOVING. -/
def State.stopMotion (s : State) (stamp : LineTime) : State :=
  let s := { s with ixs := { s.ixs with stopStamp := some stamp } }
  let j := rampStart (s.ixs.origin.getD s.pgn.origin) stamp
  if j ≤ s.pgn.periods then ({ s with pgn := s.pgn.ramp j }.moveShuttle .stopping).enter .stopping else s

/-- R65: STOP of the station's index in STOPPED or RESUME_WAIT. -/
def State.stopResume (s : State) : State :=
  { s.clearResume.withdraw (ofKind .resume) with ixs := { s.ixs with state := .stopped, resumeStep := .none } }

/-- Table 3-3: STOP of the station's index, by sequencer state. -/
def State.takeStop (s : State) (stamp : LineTime) : State :=
  let s := s.withdraw (isStopOf s.ixs.index)
  match s.ixs.state with
  | .releasing | .liftWait => s.abandon
  | .moving => s.stopMotion stamp
  | .stopped | .resumeWait => s.stopResume
  | _ => s

/-- R62, R79, R87: a stop ramp has ended. -/
def State.rampEnded (s : State) : State :=
  let s := s.moveShuttle .haltedMid
  if s.ixs.state = .stopping then s.enter .stopped else s

/-- R58: LOWERING begins with the in-position wait; a shuttle HALTED with no level-7 cause pending restarts. -/
def State.enterLowering (s : State) : State :=
  let s := { s with ixs := { s.ixs with loweringTimer := some Config.inPositionTime, sinceCompletion := 0 } }
  let s := (s.goStep .inPosition).enter .lowering
  if s.har.anyPendingAt 7 then s else s.restart

/-- R57, R87: a forward or resume profile has completed. -/
def State.commonCompleted (s : State) : State :=
  let s := s.moveShuttle .atEnd
  if s.ixs.state = .moving then
    let s := { s with ixs := { s.ixs with index := s.ixs.index + 1, origin := none, stopStamp := none }
                      sim := s.sim.shift }
    s.clearReady.clearLifted.clearResume.enterLowering
  else s

/-! Lowering and seating. -/

/-- R60: the member directly upstream has been heard to have lowered the index just made. -/
def State.upstreamLowered (s : State) : Bool :=
  match s.peers[s.ownIdx - 1]? with
  | some p => p.lastLowered == some s.indexMade
  | none => false

/-- R59, R60: enters SEATING. -/
def State.enterSeating (s : State) : State :=
  let s := (s.goStep .upstream).enter .seating
  let limit := Config.timeout s.items.lowerTimeout
  if s.isLoad then { s with ixs := { s.ixs with upstreamTimer := none } }.enterWorking
  else if s.upstreamLowered then s.decideSeating
  else if limit ≤ s.ixs.sinceCompletion then
    { s with ixs := { s.ixs with upstreamTimer := none, lowerExpired := some .upstream } }.raise .lowerFault
  else { s with ixs := { s.ixs with upstreamTimer := some (limit - s.ixs.sinceCompletion) } }

/-- R82, R90, R95: the return is commanded, from PITCH in every shuttle state but HALTED (DEDUCED, assumption 24). -/
def State.commandReturn (s : State) : State :=
  if s.ssv.shuttle = .halted then s.moveShuttle .returning else (s.moveShuttle .returning).returnFrom s.pitch

/-- R59: the station's HANDOVER for the index just made has been removed. -/
def State.handoverLost (s : State) : Bool :=
  match s.rst.outgoing with
  | some o => o.index == s.indexMade && o.state == .lost
  | none => false

/-- R59: with the lift DOWN, LOWERED is queued once the HANDOVER is observed or lost, or at the unload station. -/
def State.tryLowered (s : State) : State :=
  if s.ixs.state = .lowering ∧ s.ixs.step = .handover ∧ s.ssv.liftState = .down
      ∧ (s.isUnload ∨ s.ixs.ownHandover ∨ s.handoverLost) then
    (s.queueFrame (.lowered s.indexMade)).commandReturn.enterSeating
  else s

/-- R53, R58, R59: what the Index Sequencer does on a report of the lift DOWN. -/
def State.liftDownReported (s : State) : State :=
  match s.ixs.state, s.ixs.step with
  | .abandoning, .abandonLift => s.abandonSeat
  | .lowering, .liftDown =>
    ({ s with ixs := { s.ixs with loweringTimer := none } }.goStep .handover).tryLowered
  | _, _ => s.tryLowered

/-- R58: the shuttle is in position: LIFT is dropped. -/
def State.lowerPallet (s : State) : State :=
  let s := { s with ssv := s.ssv.lowerLift
                    ixs := { s.ixs with loweringTimer := some (Config.timeout s.items.lowerTimeout) } }.goStep .liftDown
  if s.ssv.liftState = .down then s.liftDownReported else s

/-- R60: the wait in SEATING for the member of index `m` ends, if the station waits for it. -/
def State.endUpstreamWait (s : State) (m : Nat) : State :=
  if s.ixs.state = .seating ∧ s.ixs.step = .upstream ∧ m + 1 = s.ownIdx then s.decideSeating else s

/-! Own frames removed after 16 marked attempts (R6). -/

/-- R51, R124, R153, R167: what the owner of a removed frame does. A STOP queued again names the announced cause (DESIGN CHOICE,
assumption 37). -/
def State.frameRemoved (s : State) : Payload → State
  | .ready _ => if s.ixs.state = .ready then s.queueFrame s.readyPayload else s
  | .lifted _ => if s.ixs.state = .liftWait then s.queueFrame (.lifted s.ixs.index) else s
  | .resume _ _ =>
    if s.ixs.state = .resumeWait then s.queueFrame (.resume s.ixs.index (s.pgn.stopSetpoint.getD 0)) else s
  | .stop i _ _ =>
    if i = s.ixs.index ∧ s.ixs.state.queuesStop ∧ 6 ≤ s.har.announcedLevel then s.queueStop s.har.announcedCause else s
  | .lowered i => if i = s.indexMade then s.queueFrame (.lowered i) else s
  | .hold _ _ => s.queueFrame (.hold s.har.announcedLevel s.har.announcedCause)
  | .handover i _ =>
    match s.rst.outgoing with
    | some o =>
      if o.index = i then { s with rst := { s.rst with outgoing := some { o with state := .lost } } }.tryLowered else s
    | none => s
  | .position _ => s
  | .beat _ => s
  | .join _ => s

end Sys2Proof.Machine
end

