-- ==== Sys2Proof/Machine/Shuttle.lean ====
section
/-! DEFINITION. The Shuttle Supervisor (Shuttle and Drive Supervision): setpoint words and what is tested at each, homing, the
return and its home check, and the end of local profiles and of periods. -/

namespace Sys2Proof.Machine

/-! Setpoint words (R93, R97, R98). -/

/-- R97: the following error of the last word exceeds FOLLOW_LIMIT with the drive asserted. -/
def State.followingTooFar (s : State) : Bool :=
  s.ssv.drive && decide (s.items.followLimit < s.ssv.followingError.natAbs)

/-- R98: the shuttle is in position at the last word. -/
def State.inPosition (s : State) : Bool :=
  s.ssv.drive && decide (s.ssv.followingError.natAbs ≤ s.items.inposWindow)

/-- R63, R98: the encoder lies within INPOS_WINDOW of the stop setpoint. -/
def State.atStopSetpoint (s : State) : Bool :=
  match s.pgn.stopSetpoint with
  | some sp => decide ((s.encoderCount - (sp : Int)).natAbs ≤ s.items.inposWindow)
  | none => false

/-- R63: queues RESUME carrying the stop setpoint. -/
def State.offerResume (s : State) : State :=
  { s with ixs := { s.ixs with resumeStep := .none } }.queueFrame (.resume s.ixs.index (s.pgn.stopSetpoint.getD 0))

/-- R90: the home check passes: the timers stop and the shuttle is AT_HOME. -/
def State.passHomeCheck (s : State) : State := { s with ssv := s.ssv.endHoming }.moveShuttle .atHome

/-- R58, R63, R90, R98: the reports that a setpoint word gives. The word that queues RESUME after a reposition needs DRIVE_ENABLE asserted
beside the window that R63 names (DEDUCED, assumption 45). -/
def State.reportWord (s : State) : State :=
  let s := if s.ixs.state = .lowering ∧ s.ixs.step = .inPosition ∧ s.ssv.shuttle = .atEnd ∧ s.inPosition
    then s.lowerPallet else s
  let s := if s.ixs.state = .resumeWait ∧ s.ixs.resumeStep = .awaitWord ∧ s.ssv.drive ∧ s.atStopSetpoint
    then s.offerResume else s
  if s.ssv.homeCheck ∧ s.inputs.home ∧ s.inPosition then s.passHomeCheck else s

/-- R93, R97: a setpoint word carrying the current setpoint is started, and its following error tested. -/
def State.sendWord (s : State) : State :=
  let s := { s with ssv := { s.ssv with word := s.pgn.setpoint, wordAge := 0, wordWaiting := false
                                        followingError := s.encoderCount - s.pgn.setpoint } }
  if s.followingTooFar then s.raise .followingError else s

/-- R93, R97, R98: a setpoint word is started, with the reports that it gives. -/
def State.startWord (s : State) : State := s.sendWord.reportWord

/-- R93: no word is being sent. -/
def State.lineFree (s : State) : Bool := decide (Config.wordTime ≤ s.ssv.wordAge)

/-! Homing and the home check (R88 to R90). -/

/-- R90: the home check starts. -/
def State.startHomeCheck (s : State) : State :=
  { s with ssv := { s.ssv with homeCheck := true, homeCheckTimer := some Config.homeCheckTime } }

/-- R88, R84: the homing run is asked for. The stage of the creep begins here, while the run still waits for its local origin (DESIGN
CHOICE, assumptions 40 and 46). -/
def State.startHomingRun (s : State) : State :=
  { s with
    pgn := s.pgn.prepareHoming s.encoderCount s.items.homingSpeed s.items.accel s.ltu.lineTime
    ssv := { s.ssv with homingStage := .creep, repositionTarget := none, repositionUse := none } }

/-- R89: the homing has failed and nothing runs: the shuttle enters UNHOMED, the drive left asserted. -/
def State.failHoming (s : State) : State := { s with ssv := s.ssv.endHoming }.moveShuttle .unhomed

/-- R88: the home edge: the encoder count is rebased, which is a change of the count (DEDUCED, assumption 20), and the run ramps
down. -/
def State.homeEdge (s : State) : State :=
  let count := s.ssv.encoder - s.ssv.homeCapture.getD s.ssv.encoder
  { s with
    pgn := (s.pgn.rebase (count.toInt - s.encoderCount)).windDown
    ssv := { s.ssv with encoder := count, encoderQuiet := 0, homingStage := .edgeRamp } }

/-- R88, R89: a homing run has ramped down. -/
def State.homingRunEnded (s : State) : State :=
  match s.ssv.homingStage with
  | .edgeRamp =>
    { s with ssv := { s.ssv with homingStage := .toZero } }.reposition .toHome 0
  | .rampFailed => s.failHoming
  | _ => s

/-- R89: the reposition off the home cam has completed. -/
def State.offCamEnded (s : State) : State :=
  if s.inputs.home then s.failHoming.raise .returnFault else s.startHomingRun

/-- R87 to R90: a reposition has completed. -/
def State.repositionCompleted (s : State) : State :=
  let use := s.ssv.repositionUse
  let s := { s with ssv := { s.ssv with repositionTarget := none, repositionUse := none } }
  match use, s.ssv.homingStage with
  | some .toPitch, _ => s.moveShuttle .atEnd
  | some .toStop, _ =>
    let s := s.moveShuttle .haltedMid
    if s.ixs.state = .resumeWait ∧ s.ixs.resumeStep = .repositioning then
      { s with ixs := { s.ixs with resumeStep := .awaitWord } } else s
  | _, .repositionFailed => s.failHoming
  | some .toHome, .toZero => { s with ssv := { s.ssv with homingStage := .check } }.startHomeCheck
  | some .toHome, _ => s.startHomeCheck
  | some .offCam, _ => s.offCamEnded
  | none, _ => s

/-- R75: a return or reposition has completed. -/
def State.localCompleted (s : State) : State :=
  match s.pgn.kind with
  | .ret => s.startHomeCheck
  | .reposition => s.repositionCompleted
  | _ => s

/-! Periods (R71, R73, R99). -/

/-- A value limited to a range of both signs. -/
def limitTo (bound v : Int) : Int := max (-bound) (min bound v)

/-- R99: POSITION for a period that has ended. -/
def positionPayload (index : IndexNo) (kind : PgnKind) (counter : Nat) (setpoint error : Int) : Payload :=
  .position { index := index, kind := kind.code, period := min counter 65535, offset := limitTo 2500000 setpoint
              error := limitTo 32767 error, saturated := decide (limitTo 32767 error ≠ error) }

/-- R57, R62, R75, R87: what the end of a period brings about in the sequencer and the shuttle. -/
def State.periodOutcome (s : State) : PeriodOutcome → State
  | .goesOn => s
  | .completed => if s.pgn.kind.common then s.commonCompleted else s.localCompleted
  | .rampEnded => if s.pgn.kind = .homing then s.homingRunEnded else s.rampEnded

/-- R71, R73: a period is in progress. -/
def State.periodRuns (s : State) : Bool :=
  s.pgn.phase == .running || (s.pgn.phase == .ramping && s.pgn.begun)

/-- R93: at the end of a period a word is started, or it waits for the end of the word being sent. -/
def State.wordAtPeriod (s : State) : State :=
  if s.lineFree then s.sendWord else { s with ssv := { s.ssv with wordWaiting := true } }

/-- R99: at the end of a period of a multiple of 8 POSITION is queued. -/
def State.reportPosition (s : State) : State :=
  if s.pgn.counter % 8 = 0 then
    s.queueFrame (positionPayload s.ixs.index s.pgn.kind s.pgn.counter s.pgn.setpoint s.ssv.followingError) else s

/-- R75, R85, R94: what the end of a period brings about; a local profile that its own last word has halted has ended without
completing. -/
def State.outcomeAfterWord (s : State) (o : PeriodOutcome) : State :=
  if s.pgn.kind.localKind ∧ s.ssv.drive = false then s else s.periodOutcome o

/-- R71, R93, R97, R99: a period ends: the setpoint is given out, its word started and tested, POSITION queued, and then the outcome
of the period taken, with the reports that the word gives (DEDUCED, assumption 9). -/
def State.endPeriod (s : State) : State :=
  if s.periodRuns then
    let r := s.pgn.endPeriod s.items.stopDecel s.pitch
    let u := { s with pgn := { r.1 with localTimer := r.1.localTimer.map fun _ => Config.period, stepFrom := none } }
    let t := u.wordAtPeriod.reportPosition.outcomeAfterWord r.2
    if s.lineFree then t.reportWord else t
  else s

/-- R71: a forward or resume profile waits for its origin; so does one that a stop ramp has replaced from period 1 (R77). -/
def State.awaitsOrigin (s : State) : Bool :=
  s.pgn.kind.common && !s.pgn.begun && (s.pgn.phase == .waiting || s.pgn.phase == .ramping)

/-- R54, R57, R71: line time reaches the origin of a forward or resume profile. -/
def State.reachOrigin (s : State) : State :=
  if s.awaitsOrigin then
    let s := { s with pgn := { s.pgn with begun := true, stepFrom := none
                                          phase := if s.pgn.phase = .waiting then .running else s.pgn.phase } }
    let s := if s.pgn.kind = .forward then s.moveRecord else s
    if s.pgn.phase = .running ∧ s.pgn.periods = 0 then { s with pgn := s.pgn.complete }.commonCompleted else s
  else s

/-- R73: a local profile waits for its origin. -/
def State.awaitsLocal (s : State) : Bool := s.pgn.kind.localKind && s.pgn.phase == .waiting

/-- R73, R75: the wait for the local origin is over. -/
def State.startLocal (s : State) : State :=
  if s.awaitsLocal then
    let s := { s with pgn := { s.pgn with begun := true, phase := .running, localTimer := some Config.period } }
    if s.pgn.kind ≠ .homing ∧ s.pgn.periods = 0 then { s with pgn := s.pgn.complete }.localCompleted else s
  else s

end Sys2Proof.Machine
end

