-- ==== Sys2Proof/Machine/Ltu.lean ====
section
/-! DEFINITION. The Line Time Unit (Line Time and Step): beat boundaries, offset samples, the step detector, the correction, and
what is done at a beat instant. -/

namespace Sys2Proof.Machine

/-! Beat boundaries (R21, R22). -/

/-- R21: the first beat boundary later than a line time. -/
def firstLater (t : LineTime) : LineTime :=
  let b := (t.toNat / Config.beatSpacing + 1) * Config.beatSpacing
  if b ≤ Config.lastBeatBoundary then BitVec.ofNat 32 b else 0

/-- R22.6: the next beat boundary after the instant of boundary `b`, line time now being `t`. A boundary no later than the one
just reached would give that one a second instant, so the boundary after it is taken (assumption 10). -/
def nextBoundary (b t : LineTime) : LineTime :=
  if (firstLater t - b).toInt ≤ 0 then firstLater b else firstLater t

/-! Samples (R24). -/

/-- The earliest of the list's samples from a member is kept, the others from it are dropped. -/
def keepFirst (m : Nat) : List Sample → List Sample
  | [] => []
  | a :: rest => if a.member = m then a :: rest.filter (fun x => x.member != m) else a :: keepFirst m rest

/-- R24: a sample is added; a third from one member replaces the later of that member's two. -/
def addSample (x : Sample) (l : List Sample) : List Sample :=
  if 2 ≤ (l.filter fun a => a.member == x.member).length then keepFirst x.member l ++ [x] else l ++ [x]

/-- R24: the offset sample of a stamp, against the local start time and the steps of line time since. -/
def offsetSample (stamp : LineTime) (c : FrameClock) : Int :=
  (stamp - (c.localStart + BitVec.ofInt 32 c.stepped)).toInt

/-! The step detector (R28, R29). -/

/-- R28: a sample lies within a window, both bounds included. -/
def withinWindow (w : Int) (x : Sample) : Bool := decide (-w ≤ x.offset ∧ x.offset ≤ w)

/-- R28: a run increased by 1, up to 255. -/
def increaseRun (n : Nat) : Nat := min (n + 1) Config.runLimit

/-- Table 2-3: the coarse run and the fine run after an interval. -/
def runsAfter (coarse fine : Nat) (l : List Sample) : Nat × Nat :=
  if l.isEmpty then (0, 0)
  else if l.all (withinWindow Config.fineWindow) then (increaseRun coarse, increaseRun fine)
  else if l.all (withinWindow Config.coarseWindow) then (increaseRun coarse, 0)
  else (0, 0)

/-- R29: the step state that the runs give. -/
def stepOfRuns (coarse fine : Nat) : StepState :=
  if Config.coarseRunNeeded ≤ coarse then
    if Config.fineRunNeeded ≤ fine then .fine else .coarse
  else .none

/-! The correction (R25, R26). -/

/-- R25: the correction before the clamp. -/
def correctionOf (l : List Sample) : Int :=
  if l.isEmpty then 0 else (((l.map Sample.offset).sum).tdiv l.length).tdiv 2

/-- R26, Table 2-2: the correction applied. -/
def appliedCorrection (before : StepState) (inMotion : Bool) (c : Int) : Int :=
  if before != .none || inMotion then limitTo Config.correctionClamp c else c

/-! The beat instant (R22, R31). -/

/-- R31: the step state falls to NONE. -/
def fallsToNone (before after : StepState) : Bool := before != .none && after == .none

/-- R22, R27: the Line Time Unit and the Line Port after the beat instant of boundary `b`; the profile notes the line time before the step
(assumption 3). -/
def State.takeBeat (s : State) (b : LineTime) : State :=
  let runs := runsAfter s.ltu.coarseRun s.ltu.fineRun s.ltu.samples
  let after := stepOfRuns runs.1 runs.2
  let c := appliedCorrection s.ltu.step s.ixs.state.inMotion (correctionOf s.ltu.samples)
  let t := s.ltu.lineTime + BitVec.ofInt 32 c
  { s with
    ltu := { lineTime := t, nextBeat := some (nextBoundary b t), samples := [], coarseRun := runs.1
             fineRun := runs.2, step := after }
    pgn := { s.pgn with stepFrom := some (s.pgn.stepFrom.getD s.ltu.lineTime) }
    lpt := { s.lpt with frame := s.lpt.frame.map fun (f : FrameClock) => { f with stepped := f.stepped + c } } }.queueFrame
      (.beat after)

/-- R22, R31: a beat instant, with the loss of step in motion that it may find. -/
def State.beat (s : State) (b : LineTime) : State :=
  let before := s.ltu.step
  let s := s.takeBeat b
  if fallsToNone before s.ltu.step ∧ s.ixs.state.inMotion then s.raise .stepLostInMotion else s

/-- R22.5: the line time has reached a boundary (R21). -/
def beatReached (t b : LineTime) : Bool := decide (0 ≤ (t - b).toInt)

end Sys2Proof.Machine
end

