-- ==== Sys2Proof/Machine/Discrete.lean ====
section
/-! DEFINITION. The meanings of the changes of the discrete inputs of the machining unit, the safety circuits, the drive and the
fixture. A change to the value already taken changes nothing (assumption 7). -/

namespace Sys2Proof.Machine

/-- MACH_CLEAR_DROP (R44). -/
def execMachClearDrop (s : State) : Answer :=
  if s.inputs.machClear then
    let t := { s with inputs := { s.inputs with machClear := false } }
    if s.ixs.state.intrudes then .next (t.raise .machIntrusion).close else .next t
  else .next s

/-- MACH_CLEAR_ON (R178). -/
def execMachClearOn (s : State) : Answer := .next { s with inputs := { s.inputs with machClear := true } }

/-- EMERGENCY_ON (R150). -/
def execEmergencyOn (s : State) : Answer :=
  if s.inputs.emergency then .next s
  else .next ({ s with inputs := { s.inputs with emergency := true } }.raise .emergency).close

/-- EMERGENCY_OFF (R150). -/
def execEmergencyOff (s : State) : Answer := .next { s with inputs := { s.inputs with emergency := false } }

/-- DRIVE_FAULT_ON (R96). -/
def execDriveFaultOn (s : State) : Answer :=
  if s.inputs.driveFault then .next s
  else .next ({ s with inputs := { s.inputs with driveFault := true } }.raise .driveFault).close

/-- DRIVE_FAULT_OFF (R96). -/
def execDriveFaultOff (s : State) : Answer := .next { s with inputs := { s.inputs with driveFault := false } }

/-- R113: pressure lost in SECURED raises its cause in this state. -/
def SeqState.losesPressure : SeqState → Bool
  | .offline | .releasing | .abandoning => false
  | _ => true

/-- R106, R111, R113: the pressure is taken as off. -/
def State.losePressure (s : State) : State :=
  let i : Inputs := { s.inputs with pressure := false }
  let t := { s with inputs := i, fxs := s.fxs.pressureOff i (Config.timeout s.items.releaseStepTimeout) }
  let t := if s.fxs.state = .secured ∧ s.ixs.state.losesPressure then t.raise .clampPressureLost else t
  if s.fxs.state = .opening ∧ t.fxs.state = .open then t.fixtureReported else t

/-- CLAMP_PRESSURE_OFF (R106, R111, R113). -/
def execClampPressureOff (s : State) : Answer :=
  if s.inputs.pressure then .next s.losePressure.close else .next s

/-- CLAMP_PRESSURE_MADE (R111): the settle counter, cleared when the pressure went off, counts from here. -/
def execClampPressureMade (s : State) : Answer := .next { s with inputs := { s.inputs with pressure := true } }

/-- R109, R117: a fixture that is LOCATING leaves for CLAMPING when both locators are engaged; in OFFLINE it has no timer. -/
def State.checkLocated (s : State) : State :=
  if s.fxs.state = .locating ∧ s.inputs.bothOn then
    { s with fxs := s.fxs.beginClamping (if s.offline then none else some (Config.timeout s.items.clampTimeout)) }
  else s

/-- LOCATORS_ENGAGED (R109, R110, R117). -/
def execLocatorsEngaged (first second : Bool) (s : State) : Answer :=
  .next { s with inputs := { s.inputs with locator1 := s.inputs.locator1 || first
                                           locator2 := s.inputs.locator2 || second } }.checkLocated

/-- R107: opening step 2 may end, and OPEN is then reported. -/
def State.checkWithdrawn (s : State) : State :=
  if s.fxs.state = .opening ∧ s.fxs.openingStep = .two ∧ s.inputs.bothOff then
    { s with fxs := s.fxs.checkOpen s.inputs }.fixtureReported
  else s

/-- R112: a locator lost from this fixture state raises LOCATE_FAULT. -/
def FixtureState.holds : FixtureState → Bool
  | .clamping | .secured => true
  | _ => false

/-- R104, R107, R112: the two sensors are taken at these values, one of them as off. -/
def State.loseLocators (s : State) (first second : Bool) : State :=
  let t := { s with inputs := { s.inputs with locator1 := first, locator2 := second } }
  if s.fxs.state.holds then t.raise .locateFault else t.checkWithdrawn

/-- LOCATOR_OFF (R107, R112). -/
def execLocatorOff (first second : Bool) (s : State) : Answer :=
  if (s.inputs.locator1 && !first) || (s.inputs.locator2 && !second) then .next (s.loseLocators first second).close
  else .next s

/-- PALLET_PRESENT_CHANGE (R104). -/
def execPalletPresentChange (present : Bool) (s : State) : Answer :=
  .next { s with inputs := { s.inputs with palletPresent := present } }

/-- PLATE_CODE_CHANGE (R104). -/
def execPlateCodeChange (code : BitVec 10) (s : State) : Answer :=
  .next { s with inputs := { s.inputs with plate := code } }

end Sys2Proof.Machine
end

