-- ==== Sys2Proof/Machine/Lines.lean ====
section
/-! DEFINITION. The lines of the 740 (Table 11-3): the levels of the discrete inputs, their samples and the changes that these take
(R88, R104, R178), and how the discrete outputs stand (R179). -/

namespace Sys2Proof.Machine

/-! The input lines (R178, Table 11-3). -/

/-- Table 11-3: the level at which an input is on. EMERGENCY and DRIVE_FAULT are on when their lines are open, so that a broken wire is
taken as the fault (R178). -/
def InputLine.onLevel : InputLine → LineLevel
  | .machClear => .high
  | .emergency => .open
  | .driveFault => .open
  | .home => .high
  | .liftUp => .high
  | .liftDown => .high
  | .pressure => .high
  | .locator1 => .high
  | .locator2 => .high
  | .palletPresent => .high

/-- The line of an input. -/
def Sampling.line (g : Sampling) : InputLine → LineState
  | .machClear => g.machClear
  | .emergency => g.emergency
  | .driveFault => g.driveFault
  | .home => g.home
  | .liftUp => g.liftUp
  | .liftDown => g.liftDown
  | .pressure => g.pressure
  | .locator1 => g.locator1
  | .locator2 => g.locator2
  | .palletPresent => g.palletPresent

/-- The taken value of an input. -/
def Inputs.taken (i : Inputs) : InputLine → Bool
  | .machClear => i.machClear
  | .emergency => i.emergency
  | .driveFault => i.driveFault
  | .home => i.home
  | .liftUp => i.liftUp
  | .liftDown => i.liftDown
  | .pressure => i.pressure
  | .locator1 => i.locator1
  | .locator2 => i.locator2
  | .palletPresent => i.palletPresent

/-- R178: the line stands at the level at which its input is on. -/
def State.lineOn (s : State) (x : InputLine) : Bool := (s.sampling.line x).level == x.onLevel

/-- R178: the line stands at the value other than the taken one. -/
def State.lineMoved (s : State) (x : InputLine) : Bool := s.lineOn x != s.inputs.taken x

/-! The samples (R88, R104, R178). -/

/-- R178: the samples are due. -/
def Sampling.due (g : Sampling) : Bool := decide (Config.sampleSpacing ≤ g.clock)

/-- R178: a sample of the line takes a new value. -/
def State.lineTakes (s : State) (x : InputLine) : Bool :=
  s.lineMoved x && decide (Config.samplesTaken ≤ (s.sampling.line x).run + 1)

/-- R178: a line after a sample. -/
def State.sampleLine (s : State) (x : InputLine) : LineState :=
  let l := s.sampling.line x
  { l with run := if s.lineMoved x && !s.lineTakes x then l.run + 1 else 0 }

/-- R104: the number of samples in a row of the combination now on the plate code lines. -/
def PlateLines.runOn (l : PlateLines) : Nat := if l.sampled = some l.code then l.run + 1 else 1

/-- R104: a sample of the plate code lines takes their combination. -/
def State.plateTakes (s : State) : Bool :=
  s.sampling.plate.code != s.inputs.plate && decide (Config.samplesTaken ≤ s.sampling.plate.runOn)

/-- R104: the plate code lines after a sample. -/
def State.samplePlate (s : State) : PlateLines :=
  let l := s.sampling.plate
  if l.code = s.inputs.plate ∨ s.plateTakes then { l with sampled := none, run := 0 }
  else { l with sampled := some l.code, run := l.runOn }

/-- R104, R178: every line after a sample. -/
def State.sampleLines (s : State) : Sampling :=
  { clock := 0, machClear := s.sampleLine .machClear, emergency := s.sampleLine .emergency
    driveFault := s.sampleLine .driveFault, home := s.sampleLine .home, liftUp := s.sampleLine .liftUp
    liftDown := s.sampleLine .liftDown, pressure := s.sampleLine .pressure, locator1 := s.sampleLine .locator1
    locator2 := s.sampleLine .locator2, palletPresent := s.sampleLine .palletPresent, plate := s.samplePlate }

/-- R178: a reset leaves the level of the line and begins its samples anew. -/
def LineState.reset (l : LineState) : LineState := { l with run := 0 }

/-- R178: the lines after a reset, which takes every input as off and leaves the lines alone; the clock of the samples starts with it (DESIGN
CHOICE, assumption 35). -/
def Sampling.afterReset (g : Sampling) : Sampling :=
  { clock := 0, machClear := g.machClear.reset, emergency := g.emergency.reset, driveFault := g.driveFault.reset
    home := g.home.reset, liftUp := g.liftUp.reset, liftDown := g.liftDown.reset, pressure := g.pressure.reset
    locator1 := g.locator1.reset, locator2 := g.locator2.reset, palletPresent := g.palletPresent.reset
    plate := { g.plate with sampled := none, run := 0 } }

/-! The events of a sample. -/

/-- An event that falls due under a condition. -/
def dueIf (b : Bool) (c : Instr) : List Instr := if b then [c] else []

/-- R178: the change of an input that a sample takes, as the event that it is. -/
def State.lineEvent (s : State) (x : InputLine) (off on : Instr) : List Instr :=
  dueIf (s.lineTakes x) (if s.lineOn x then on else off)

/-- R88: the home capture: a sample of the home sensor first differs from the taken value, or the samples return before three are
counted. -/
def State.captureEvents (s : State) : List Instr :=
  dueIf (s.lineMoved .home && s.sampling.home.run == 0) (.homeCapture true)
    ++ dueIf (!s.lineMoved .home && s.sampling.home.run != 0) (.homeCapture false)

/-- R104, R109, R112: a sample that takes a change of the locator sensors takes the two at one instant, as the event that it is. -/
def State.locatorEvents (s : State) : List Instr :=
  let a := s.inputs.locator1 ^^ s.lineTakes .locator1
  let b := s.inputs.locator2 ^^ s.lineTakes .locator2
  if (s.inputs.locator1 && !a) || (s.inputs.locator2 && !b) then [.locatorOff a b]
  else if s.lineTakes .locator1 || s.lineTakes .locator2 then [.locatorsEngaged a b]
  else []

/-- R88, R104, R178: the events of one sample of every input, in the order in which the model takes them (assumption 35). -/
def State.sampleEvents (s : State) : List Instr :=
  s.lineEvent .machClear .machClearDrop .machClearOn
    ++ s.lineEvent .emergency .emergencyOff .emergencyOn
    ++ s.lineEvent .driveFault .driveFaultOff .driveFaultOn
    ++ s.lineEvent .pressure .clampPressureOff .clampPressureMade
    ++ s.locatorEvents
    ++ s.lineEvent .palletPresent (.palletPresentChange false) (.palletPresentChange true)
    ++ dueIf s.plateTakes (.plateCodeChange s.sampling.plate.code)
    ++ s.lineEvent .liftUp (.liftSensorOff true) .liftUpSensorOn
    ++ s.lineEvent .liftDown (.liftSensorOff false) .liftDownSensorOn
    ++ s.captureEvents
    ++ s.lineEvent .home (.homeSensorChange false) (.homeSensorChange true)

/-! The output lines (R179, Table 11-3). -/

/-- R179: an output that is asserted by driving it. -/
def OutputDrive.ofAsserted (asserted : Bool) : OutputDrive := if asserted then .driven else .released

/-- R179: an output that is asserted by releasing it. -/
def OutputDrive.ofReleased (asserted : Bool) : OutputDrive := if asserted then .released else .driven

/-- R179: how the discrete outputs stand: all but SECTION_STOP are asserted by driving them, and SECTION_STOP by releasing it. -/
def State.outputLines (s : State) : OutputLines :=
  { release := .ofAsserted s.fxs.release, withdraw := .ofAsserted s.fxs.withdraw, lift := .ofAsserted s.ssv.lift
    driveEnable := .ofAsserted s.ssv.drive, machPermit := .ofAsserted s.pins.machPermit, attn := .ofAsserted s.pins.attn
    sectionStop := .ofReleased s.pins.sectionStop }

/-- R179, R180: the discrete outputs of a 740 that is unpowered or held in reset: it drives none. -/
def OutputLines.undriven : OutputLines :=
  { release := .released, withdraw := .released, lift := .released, driveEnable := .released, machPermit := .released
    attn := .released, sectionStop := .released }

end Sys2Proof.Machine
end

