-- ==== Sys2Proof/Machine/Link.lean ====
section
/-! DEFINITION. The meanings of RESET and of the events of the link that observe nothing: LINK_IDLE_SEEN, FRAME_START,
ARBITRATION_LOST and FRAME_MARKED. -/

namespace Sys2Proof.Machine

/-- R180: the part is reset in full. The commands that wait at its pins still wait (DESIGN CHOICE,
assumption 31), and the levels of its lines stay (DESIGN CHOICE, assumption 35). -/
def State.resetPart (s : State) (cause : ResetCause) : State :=
  { State.resetBy cause with
    sampling := s.sampling.afterReset, freeTaken := s.freeTaken, pending := s.pending }

/-- RESET (R180). A pulse shorter than 10 µs resets the part in full or is ignored (assumption 4). -/
def execReset (cause : ResetCause) (shortPulse : Bool) (s : State) : Answer :=
  if shortPulse then
    let t := { s with freeTaken := s.freeTaken + 1 }
    if Config.shortPulseResets s.freeTaken then .next (t.resetPart cause) else .next t
  else .next (s.resetPart cause)

/-- LINK_IDLE_SEEN (R1, R12). -/
def execLinkIdleSeen (s : State) : Answer := .next { s with lpt := { s.lpt with idleSeen := true } }

/-- R1: the station can take part in a frame that starts now. -/
def Lpt.canStart (l : Lpt) : Bool := l.idleSeen && l.frame.isNone

/-- R100: the copy taken at a frame start. -/
def Pgn.frameCopy (p : Pgn) : FrameCopy := ⟨p.counter, p.phase, p.kind, p.stopPosition.isSome⟩

/-- R1, R3, R100: a frame of another station starts, and the station receives it. -/
def State.startReceiving (s : State) : State :=
  { s with lpt := { s.lpt with frame := some ⟨s.ltu.lineTime, 0⟩ }, ssv := { s.ssv with frameCopy := some s.pgn.frameCopy } }

/-- R1, R3, R10, R100: the station starts a frame from its queue. -/
def State.startSending (s : State) : State :=
  { s with lpt := s.lpt.startOwn s.ltu.lineTime, ssv := { s.ssv with frameCopy := some s.pgn.frameCopy } }

/-- FRAME_START (R1, R3, R10, R100). -/
def execFrameStart (own : Bool) (s : State) : Answer :=
  if s.lpt.canStart then
    if own then
      if s.lpt.queue.isEmpty then .next s else .next s.startSending
    else .next s.startReceiving
  else .next s

/-- ARBITRATION_LOST (R2, R10, R11): the station goes on as a receiver. -/
def execArbitrationLost (s : State) : Answer := .next { s with lpt := s.lpt.giveUp }

/-- R5, R6: the frame on the link is marked, which may remove an own frame; the cause is raised before the owner of the frame acts
(DESIGN CHOICE, assumption 6). -/
def State.marked (s : State) : State :=
  let r := s.lpt.mark
  let s := { s with lpt := r.1 }
  match r.2 with
  | some p => ((s.raise .lineTransmitFailure).frameRemoved p).close
  | none => s

/-- FRAME_MARKED (R5, R6, R10, R51). -/
def execFrameMarked (s : State) : Answer :=
  if s.lpt.frame.isSome then .next s.marked else .next s

end Sys2Proof.Machine
end

