-- ==== Sys2Proof/Machine/Frames.lean ====
section
/-! DEFINITION. The observation of a frame (R7, R13, R14), what each block does with each kind (Table 0-2), and the meanings of the
eleven commands that are observations. -/

namespace Sys2Proof.Machine

/-- What a delivery carries beside the header and the payload (R13): the index (from 0) of the member that sent the frame, whether
the frame is the station's own, and the clock of its start. -/
structure Delivery where
  member : Nat
  own : Bool
  clock : FrameClock
  deriving DecidableEq, Repr

/-- R32: a member is heard. -/
def State.hear (s : State) (m : Nat) : State :=
  s.updatePeer m fun p => { p with lastHeard := some s.ltu.lineTime, silence := some 0 }

/-- R23, R24: BEAT at the Line Time Unit. -/
def State.deliverBeat (s : State) (d : Delivery) (stamp : LineTime) (step : StepState) : State :=
  if d.own then s.updatePeer d.member fun p => { p with reportedStep := some step }
  else
    let x := offsetSample stamp d.clock
    { s with ltu := { s.ltu with samples := addSample ⟨d.member, x⟩ s.ltu.samples } }.updatePeer d.member fun p =>
      { p with lastOffset := some x, reportedStep := some step }

/-- R169: a JOIN agrees with the station's own numbers. -/
def State.joinMatches (s : State) (f : JoinFields) : Bool :=
  f.pitch == s.pitch && f.vmax == s.items.vmax && f.accel == s.items.accel && f.stopDecel == s.items.stopDecel
    && f.members == s.memberCount

/-- R169, R154: JOIN writes the sender's JOIN columns, match flag, level and cause. -/
def State.writeJoin (s : State) (m : Nat) (f : JoinFields) : State :=
  let flag := if s.joinMatches f then MatchFlag.yes else MatchFlag.no
  s.updatePeer m fun p =>
    { p with join := some ⟨f.pitch, f.vmax, f.accel, f.stopDecel, f.members, f.index, f.forming⟩, matched := flag
             level := f.level, cause := f.cause }

/-- R38: what a forming JOIN does to the READY marks and to a station in READY. -/
def State.clearAtForming (s : State) : State :=
  let s := if s.ixs.state.clearsReady then s.clearReady else s
  if s.ixs.state = .ready then s.queueFrame s.readyPayload else s

/-- R168: the answer to a forming JOIN. -/
def State.answerJoin (s : State) : State :=
  if s.ixs.state = .offline ∨ s.ixs.state = .forming then s else s.queueFrame s.joinPayload

/-- R170: a station in FORMING adopts the index number of a JOIN that is not forming. -/
def State.adoptIndex (s : State) (index : IndexNo) : State :=
  if s.ixs.state = .forming then
    let t := if index = s.ixs.index then s else s.clearReady
    { t with ixs := { t.ixs with index := index } }
  else s

/-- R38, R60, R154, R168 to R170: JOIN at the Index Sequencer and the Hold Arbiter. -/
def State.deliverJoin (s : State) (d : Delivery) (f : JoinFields) : State :=
  let s := s.writeJoin d.member f
  if f.forming then s.clearAtForming.answerJoin.endUpstreamWait d.member else s.adoptIndex f.index

/-- R37, R46, R138: READY at the Section Image and the Index Sequencer; the image takes it first, R141 leaving the order open
(DESIGN CHOICE, assumption 27). -/
def State.deliverReady (s : State) (d : Delivery) (f : ReadyFields) : State :=
  if f.index = s.ixs.index then
    ((s.updatePeer d.member fun p => { p with ready := true }).updateImage d.member f).checkReadyBarrier
  else s

/-- R39, R48: LIFTED at the Index Sequencer. -/
def State.deliverLifted (s : State) (d : Delivery) (stamp : LineTime) (index : IndexNo) : State :=
  if index = s.ixs.index ∧ (s.ixs.state = .releasing ∨ s.ixs.state = .liftWait) then
    (s.updatePeer d.member fun p => { p with lifted := true }).checkLiftedBarrier stamp
  else s

/-- R41, R60: LOWERED at the Index Sequencer. -/
def State.deliverLowered (s : State) (d : Delivery) (index : IndexNo) : State :=
  let s := s.updatePeer d.member fun p => { p with lastLowered := some index }
  if index = s.indexMade then s.endUpstreamWait d.member else s

/-- R40, R64: RESUME at the Index Sequencer. -/
def State.deliverResume (s : State) (d : Delivery) (stamp : LineTime) (index : IndexNo) (stopSetpoint : Nat) : State :=
  if index = s.ixs.index ∧ (s.ixs.state = .stopped ∨ s.ixs.state = .resumeWait) then
    let s := s.updatePeer d.member fun p => { p with resume := true }
    let s := if s.pgn.stopSetpoint = some stopSetpoint then s else s.raise .syncDeviation
    s.checkResumeBarrier stamp
  else s

/-- R154: a STOP of a level higher than the one recorded writes the sender's level and cause. -/
def raiseLevel (level cause : Nat) (p : Peer) : Peer :=
  if p.level < level then { p with level := level, cause := cause } else p

/-- R52, R56, R62, R65, R154: STOP at the Hold Arbiter and then the Index Sequencer (DESIGN CHOICE, assumption 28). -/
def State.deliverStop (s : State) (d : Delivery) (stamp : LineTime) (index : IndexNo) (cause level : Nat) : State :=
  if index = s.ixs.index then (s.updatePeer d.member (raiseLevel level cause)).takeStop stamp else s

/-- R45, R154: HOLD at the Hold Arbiter, and its report to the Index Sequencer. -/
def State.deliverHold (s : State) (d : Delivery) (level cause : Nat) : State :=
  s.updatePeer d.member fun p =>
    { p with level := level, cause := cause, ready := p.ready && decide (level < 4) }

/-- R101: the frame-start copy lets a POSITION be tested. -/
def copyTests (c : FrameCopy) (kind : ProfileCode) : Bool :=
  (kind == .forward || kind == .resume) && c.kind.common && c.kind.code == kind
    && (c.phase == .waiting || c.phase == .running || c.phase == .ramping || (c.phase == .idle && c.stopHeld))

/-- R101: the counter of the copy lies more than 2 periods outside the range p to p + 7. -/
def deviates (p q : Nat) : Bool := decide (q + 2 < p ∨ p + 9 < q)

/-- R101: a POSITION of another member deviates. -/
def State.positionDeviates (s : State) (f : PositionFields) : Bool :=
  match s.ssv.frameCopy with
  | some c => f.index == s.ixs.index && copyTests c f.kind && deviates f.period c.counter
  | none => false

/-- R100, R101: POSITION at the Shuttle Supervisor. -/
def State.deliverPosition (s : State) (d : Delivery) (f : PositionFields) : State :=
  let s := s.updatePeer d.member fun p => { p with position := some ⟨f, s.ltu.lineTime⟩ }
  if !d.own && s.positionDeviates f then s.raise .syncDeviation else s

/-- R124: the station's own HANDOVER has been observed. -/
def State.ownHandoverObserved (s : State) (index : IndexNo) : State :=
  match s.rst.outgoing with
  | some o =>
    if o.index = index then
      { s with rst := { s.rst with outgoing := some { o with state := .observed } }
               ixs := { s.ixs with ownHandover := true } }.tryLowered
    else s
  | none => s

/-- R125: a HANDOVER of this index from the member directly upstream is taken. -/
def State.takesHandover (s : State) (index : IndexNo) : Bool :=
  (s.ixs.state.exchanging && index == s.ixs.index)
    || ((s.ixs.state == .lowering || (s.ixs.state == .seating && s.ixs.step == .upstream)) && index == s.indexMade)

/-- R124, R125: HANDOVER at the Record Store. -/
def State.deliverHandover (s : State) (d : Delivery) (index : IndexNo) (content : Option PalletRecord) : State :=
  if d.own then s.ownHandoverObserved index
  else if !s.isLoad && d.member + 1 == s.ownIdx && s.takesHandover index then
    { s with rst := { s.rst with incoming := some ⟨index, content⟩ } }
  else s

/-- Table 0-2: a frame of a member is delivered to the block that owns its kind. -/
def State.deliver (s : State) (d : Delivery) (f : Frame) : State :=
  match f.payload with
  | .stop i c l => s.deliverStop d f.header.stamp i c l
  | .lifted i => s.deliverLifted d f.header.stamp i
  | .lowered i => s.deliverLowered d i
  | .resume i sp => s.deliverResume d f.header.stamp i sp
  | .ready r => s.deliverReady d r
  | .hold l c => s.deliverHold d l c
  | .handover i c => s.deliverHandover d i c
  | .position p => s.deliverPosition d p
  | .beat st => s.deliverBeat d f.header.stamp st
  | .join j => s.deliverJoin d j

/-- R15: a foreign frame starts the foreign-frame timer. -/
def State.takeForeign (s : State) : State :=
  { s with lpt := { s.lpt with foreignTimer := some Config.foreignTime } }.close

/-- R2, R10: an own attempt that has lost arbitration to this frame goes back. -/
def State.yieldTo (s : State) (f : Frame) : State :=
  if s.losesTo f then { s with lpt := s.lpt.giveUp } else s

/-- R7, R13, R14: a frame in which no fault is found is taken. The owner of its kind acts first, and the self-clearing causes are judged
after it, so that a cause which ends at this observation (R33, R148) still counts in what the owner does (DESIGN CHOICE, assumption 47). -/
def State.take (s : State) (f : Frame) : State :=
  let own := s.isOwnAttempt f
  let clock := s.lpt.frame.getD ⟨s.ltu.lineTime, 0⟩
  let m := s.memberList.idxOf f.header.sender
  let t := { s with lpt := s.lpt.observed own }
  if t.offline then t
  else if t.foreign f.header own then t.takeForeign
  else ((t.hear m).deliver ⟨m, own, clock⟩ f).close

/-- R4, R5, R7: a frame is sensed to its end by a station that takes part in it: one in which the station finds a fault is marked and not
taken. -/
def State.sense (s : State) (f : Frame) : State := if s.findsFault f then s.marked else s.take f

/-- R2, R4, R5, R7: a frame ends without a mark of another station. The arbitration field comes first: an own attempt with the higher
identifier goes back before any fault is found. A station that takes no part in the frame changes nothing (assumption 7). -/
def State.observe (s : State) (f : Frame) : State := if s.takesPart then (s.yieldTo f).sense f else s

/-! The commands. -/

/-- FOREIGN_FRAME_OBSERVED (R14, R15). -/
def execForeignFrameObserved (frame : Frame) (s : State) : Answer := .next (s.observe frame)

/-- BEAT_OBSERVED (R23, R24). -/
def execBeatObserved (header : Header) (step : StepState) (s : State) : Answer :=
  .next (s.observe ⟨header, .beat step⟩)

/-- JOIN_OBSERVED (R38, R168 to R170). -/
def execJoinObserved (header : Header) (fields : JoinFields) (s : State) : Answer :=
  .next (s.observe ⟨header, .join fields⟩)

/-- READY_OBSERVED (R37, R46, R138 to R142). -/
def execReadyObserved (header : Header) (fields : ReadyFields) (s : State) : Answer :=
  .next (s.observe ⟨header, .ready fields⟩)

/-- LIFTED_OBSERVED (R39, R48). -/
def execLiftedObserved (header : Header) (index : IndexNo) (s : State) : Answer :=
  .next (s.observe ⟨header, .lifted index⟩)

/-- LOWERED_OBSERVED (R41, R60). -/
def execLoweredObserved (header : Header) (index : IndexNo) (s : State) : Answer :=
  .next (s.observe ⟨header, .lowered index⟩)

/-- RESUME_OBSERVED (R40, R64). -/
def execResumeObserved (header : Header) (index : IndexNo) (stopSetpoint : Nat) (s : State) : Answer :=
  .next (s.observe ⟨header, .resume index stopSetpoint⟩)

/-- STOP_OBSERVED (R52, R56, R62, R65, R154). -/
def execStopObserved (header : Header) (index : IndexNo) (cause level : Nat) (s : State) : Answer :=
  .next (s.observe ⟨header, .stop index cause level⟩)

/-- HOLD_OBSERVED (R45, R154). -/
def execHoldObserved (header : Header) (level cause : Nat) (s : State) : Answer :=
  .next (s.observe ⟨header, .hold level cause⟩)

/-- POSITION_OBSERVED (R100, R101). -/
def execPositionObserved (header : Header) (fields : PositionFields) (s : State) : Answer :=
  .next (s.observe ⟨header, .position fields⟩)

/-- HANDOVER_OBSERVED (R124, R125). -/
def execHandoverObserved (header : Header) (index : IndexNo) (content : Option PalletRecord) (s : State) : Answer :=
  .next (s.observe ⟨header, .handover index content⟩)

end Sys2Proof.Machine
end

