-- ==== Sys2Proof/Machine/Motion.lean ====
section
/-! DEFINITION. The meanings of the events of motion: origins, periods, setpoint words, the home sensor, the encoder and the lift
sensors. -/

namespace Sys2Proof.Machine

/-- PROFILE_ORIGIN (R54, R71, R75). -/
def execProfileOrigin (s : State) : Answer :=
  if s.awaitsOrigin then .next s.reachOrigin.close else .next s

/-- LOCAL_PROFILE_START (R73, R75). -/
def execLocalProfileStart (s : State) : Answer :=
  if s.awaitsLocal then .next s.startLocal.close else .next s

/-- PERIOD_END (R71, R75, R79, R93, R99). -/
def execPeriodEnd (s : State) : Answer :=
  if s.periodRuns then .next s.endPeriod.close else .next s

/-- SETPOINT_WORD_REPEAT (R93, R97, R98). -/
def execSetpointWordRepeat (s : State) : Answer :=
  if s.lineFree then .next s.startWord.close else .next s

/-- SETPOINT_WORD_END (R93): the word that waits for the end of the one being sent is started. -/
def execSetpointWordEnd (s : State) : Answer :=
  if s.ssv.wordWaiting then .next s.startWord.close else .next s

/-- HOME_SENSOR_CHANGE (R88): the home edge is taken during the creep of a homing run, from the instant at which the run is asked for
(DESIGN CHOICE, assumption 40). -/
def execHomeSensorChange (on : Bool) (s : State) : Answer :=
  if on == s.inputs.home then .next s
  else
    let t := { s with inputs := { s.inputs with home := on } }
    if on && s.ssv.homingStage == .creep then .next t.homeEdge else .next t

/-- HOME_CAPTURE (R88): the encoder count at the first differing sample is latched, or the capture is discarded. -/
def execHomeCapture (differs : Bool) (s : State) : Answer :=
  .next { s with ssv := { s.ssv with homeCapture := if differs then some s.ssv.encoder else none } }

/-- ENCODER_EDGE (R92). -/
def execEncoderEdge (downstream : Bool) (s : State) : Answer :=
  .next { s with ssv := { s.ssv with encoder := if downstream then s.ssv.encoder + 1 else s.ssv.encoder - 1
                                     encoderQuiet := 0 } }

/-- LIFT_UP_SENSOR_ON (R91, R47). The lift is UP by the sensor going on while RISING (DEDUCED, assumption 22). -/
def execLiftUpSensorOn (s : State) : Answer :=
  if s.inputs.liftUp then .next s
  else
    let t := { s with inputs := { s.inputs with liftUp := true } }
    if s.ssv.liftState = .rising then .next { t with ssv := { t.ssv with liftState := .up } }.liftReported.close
    else .next t

/-- LIFT_DOWN_SENSOR_ON (R91, R53, R58, R59). -/
def execLiftDownSensorOn (s : State) : Answer :=
  if s.inputs.liftDown then .next s
  else
    let t := { s with inputs := { s.inputs with liftDown := true } }
    if s.ssv.liftState = .falling then .next { t with ssv := { t.ssv with liftState := .down } }.liftDownReported.close
    else .next t

/-- R91: the travelling state of the present command. -/
def Ssv.travelling (v : Ssv) : LiftState := if v.lift then .rising else .falling

/-- LIFT_SENSOR_OFF (R91): the lift-up sensor, or else the lift-down sensor. -/
def execLiftSensorOff (up : Bool) (s : State) : Answer :=
  let last := if up then LiftState.up else .down
  let i : Inputs := if up then { s.inputs with liftUp := false } else { s.inputs with liftDown := false }
  if i = s.inputs then .next s
  else
    let t := { s with inputs := i }
    if s.ssv.liftState = last then .next { t with ssv := { t.ssv with liftState := t.ssv.travelling } } else .next t

end Sys2Proof.Machine
end

