-- ==== Sys2Proof/Machine/Operands.lean ====
section
/-! DEFINITION. The operands of the Cell Port requests: which values each item takes and how it is held (R161, Table 10-1),
which records may be loaded (R128), and the codes of results. -/

namespace Sys2Proof.Machine

/-- Table 10-1: a number in its item's range. -/
def inRange (lo hi n : Nat) : Option Nat := if lo ≤ n ∧ n ≤ hi then some n else none

/-- R161, Table 10-1: a membership list of 2 to 16 entries, each 1 to 63. -/
def membersValue (v : List Byte) : Option (List Nat) :=
  if 2 ≤ v.length ∧ v.length ≤ 16 ∧ v.all (fun b => decide (1 ≤ b.toNat ∧ b.toNat ≤ 63)) then some (v.map BitVec.toNat)
  else none

/-- R161, Table 10-1: the items with one value stored in its held form; none where the value lies outside the item's range,
the name is not one of Table 10-1, or the item is CAUSE_LEVEL, which the Hold Arbiter holds. -/
def Items.store (it : Items) : ItemWrite → Option Items
  | .stationNumber v => (inRange 1 63 v.toNat).map fun n => { it with stationNumber := some n }
  | .sectionId v => (inRange 1 15 v.toNat).map fun n => { it with sectionId := some n }
  | .members v => (membersValue v).map fun l => { it with members := some l }
  | .pitch v => (inRange 400000 2500000 v.toNat).map fun n => { it with pitch := some n }
  | .vmax v => (inRange 100 2000 v.toNat).map fun n => { it with vmax := n * 256 }
  | .accel v => (inRange 64 2048 v.toNat).map fun n => { it with accel := n }
  | .stopDecel v => (inRange 64 4096 v.toNat).map fun n => { it with stopDecel := n }
  | .homingSpeed v => (inRange 5 100 v.toNat).map fun n => { it with homingSpeed := n * 256 }
  | .followLimit v => (inRange 500 20000 v.toNat).map fun n => { it with followLimit := n }
  | .inposWindow v => (inRange 50 2000 v.toNat).map fun n => { it with inposWindow := n }
  | .settleStage v => (inRange 1 7 v.toNat).map fun n => { it with settleStage := n }
  | .releaseStepTimeout v => (inRange 100 10000 v.toNat).map fun n => { it with releaseStepTimeout := n }
  | .locateTimeout v => (inRange 100 10000 v.toNat).map fun n => { it with locateTimeout := n }
  | .clampTimeout v => (inRange 100 10000 v.toNat).map fun n => { it with clampTimeout := n }
  | .liftBarrierTimeout v => (inRange 100 10000 v.toNat).map fun n => { it with liftBarrierTimeout := n }
  | .lowerTimeout v => (inRange 100 10000 v.toNat).map fun n => { it with lowerTimeout := n }
  | .causeLevel _ _ => none
  | .unknown _ _ => none

/-- R161, R147: the cause and the level that CAUSE_LEVEL stores, raised to the cause's floor; none outside the ranges. -/
def causeLevelValue (cause level : Byte) : Option (Cause × Nat) :=
  match Cause.ofNumber cause.toNat with
  | some c => if level.toNat ≤ 7 then some (c, max c.floor level.toNat) else none
  | none => none

/-- R163: the items that JOIN needs are written. -/
def Items.complete (it : Items) : Bool :=
  it.stationNumber.isSome && it.sectionId.isSome && it.members.isSome && it.pitch.isSome

/-- R163: MEMBERS contains STATION_NUMBER and no station number twice. -/
def Items.membersGood (it : Items) : Bool :=
  let l := it.members.getD []
  l.contains (it.stationNumber.getD 0) && decide l.Nodup

/-- R164: the two clamps at JOIN. -/
def Items.clamped (it : Items) : Items :=
  { it with stopDecel := max it.stopDecel it.accel, homingSpeed := max it.homingSpeed it.accel }

/-- R128: the record that the octets of LOAD_ENTRY or LOAD_FIXTURE spell, or none where R128 refuses it. -/
def loadableRecord (os : List Byte) : Option PalletRecord :=
  match recordOfOctets os with
  | some r => if r.ops.all (fun e => decide ((resultVerdict e.result).code ≤ r.verdict.code)) then some r else none
  | none => none

end Sys2Proof.Machine
end

