-- ==== Sys2Proof/Machine/Response.lean ====
section
/-! DEFINITION. The responses of the Cell Port: their fields (R177, Table 11-7, Table 11-8) and what a
transaction shifts out (R174). -/

namespace Sys2Proof.Machine

/-! Codes (Table 11-8). -/

/-- Table 11-8. -/
def SeqState.code : SeqState → Nat
  | .offline => 0 | .forming => 1 | .working => 2 | .ready => 3 | .releasing => 4 | .liftWait => 5 | .moving => 6
  | .stopping => 7 | .stopped => 8 | .resumeWait => 9 | .abandoning => 10 | .lowering => 11 | .seating => 12

/-- Table 11-8. -/
def ShuttleState.code : ShuttleState → Nat
  | .unhomed => 0 | .homing => 1 | .atHome => 2 | .forward => 3 | .stopping => 4 | .haltedMid => 5
  | .repositioning => 6 | .atEnd => 7 | .returning => 8 | .halted => 9

/-- Table 11-8. -/
def LiftState.code : LiftState → Nat
  | .down => 0 | .rising => 1 | .up => 2 | .falling => 3

/-- Table 11-8. -/
def FixtureState.code : FixtureState → Nat
  | .open => 0 | .opening => 1 | .locating => 2 | .clamping => 3 | .secured => 4

/-- Table 11-8. -/
def OutgoingState.code : OutgoingState → Nat
  | .queued => 0 | .observed => 1 | .lost => 2

/-- Table 11-8. -/
def MatchFlag.code : MatchFlag → Nat
  | .unknown => 0 | .yes => 1 | .no => 2

/-- Table 11-8. -/
def resetCauseCode : ResetCause → Nat
  | .powerOn => 0 | .resetInput => 1

/-! Fields (Table 11-7). -/

/-- R175: what GET_STATUS returns. -/
def State.statusFields (s : State) : List Byte :=
  octets 1 s.ixs.state.code ++ octets 2 s.ixs.index.toNat ++ octets 1 s.ltu.step.code
    ++ octets 1 s.ssv.shuttle.code ++ octets 1 s.ssv.liftState.code ++ signedOctets 4 s.encoderCount
    ++ signedOctets 4 s.pgn.setpoint ++ octets 1 s.fxs.state.code ++ octets 1 s.rst.status.code
    ++ octets 1 s.fxs.marks
    ++ [flagOctet s.inputs.pressure, flagOctet s.inputs.locator1, flagOctet s.inputs.locator2,
        flagOctet s.inputs.palletPresent]
    ++ octets 2 s.inputs.plate.toNat
    ++ [flagOctet s.inputs.machClear, flagOctet s.inputs.emergency, flagOctet s.inputs.driveFault,
        flagOctet s.inputs.home, flagOctet s.inputs.liftUp, flagOctet s.inputs.liftDown]
    ++ octets 1 s.har.announcedLevel ++ octets 1 s.har.announcedCause ++ octets 1 s.har.sectionLevel
    ++ octets 1 (resetCauseCode s.cpt.resetCause)

/-- Table 11-7: one cause in GET_CAUSES. -/
def causeFields (h : Har) (c : Cause) : List Byte :=
  [flagOctet c.latched] ++ octets 1 (h.level c) ++ [flagOctet (h.isPending c)]

/-- R159: what GET_CAUSES returns. -/
def State.causesFields (s : State) : List Byte :=
  Cause.all.flatMap (causeFields s.har) ++ octets 1 s.har.announcedLevel ++ octets 1 s.har.announcedCause
    ++ octets 1 s.har.sectionLevel ++ octets 1 s.har.attnMask.toNat

/-- Table 11-7: the outgoing record. -/
def outgoingFields (o : Outgoing) : List Byte :=
  octets 2 o.index.toNat ++ contentOctets o.content ++ octets 1 o.state.code

/-- Table 11-7: the pending result, 255 when absent. -/
def resultOctet : Option MachResult → Byte
  | some r => BitVec.ofNat 8 r.code
  | none => 255

/-- R135: what GET_FIXTURE_RECORD returns. -/
def State.fixtureFields (s : State) : List Byte :=
  octets 1 s.rst.status.code ++ contentOctets s.rst.record ++ [resultOctet s.ixs.pendingResult]
    ++ presence outgoingFields s.rst.outgoing

/-- R135: what GET_INCOMING returns of a filled slot. -/
def incomingFields (i : Incoming) : List Byte := octets 2 i.index.toNat ++ contentOctets i.content

/-- Table 11-7: a slot content. -/
def slotFields : Slot → List Byte
  | .unknown => [0]
  | .empty => [1]
  | .pallet id variant verdict => [2] ++ octets 2 id ++ octets 1 variant ++ octets 1 verdict.code

/-- R144: what GET_IMAGE returns. -/
def State.imageFields (s : State) : List Byte :=
  octets 2 s.ixs.index.toNat ++ octets 1 s.memberCount
    ++ (s.memberList.zip s.sim.slots).flatMap (fun p => octets 1 p.1 ++ slotFields p.2)
    ++ slotFields s.sim.exitSlot

/-- Table 11-7: the JOIN columns. -/
def joinFieldsOctets (j : JoinColumns) : List Byte :=
  octets 4 j.pitch ++ octets 4 j.vmax ++ octets 2 j.accel ++ octets 2 j.stopDecel ++ octets 1 j.members
    ++ octets 2 j.index.toNat ++ [flagOctet j.forming]

/-- Table 11-7: the last POSITION. -/
def positionFieldsOctets (p : PositionColumns) : List Byte :=
  octets 2 p.fields.index.toNat ++ octets 1 p.fields.kind.code ++ octets 2 p.fields.period
    ++ signedOctets 4 p.fields.offset ++ signedOctets 2 p.fields.error ++ [flagOctet p.fields.saturated]
    ++ octets 4 p.observed.toNat

/-- R176: what GET_PEER returns of the member at a position. -/
def peerFields (position : Nat) (p : Peer) : List Byte :=
  octets 1 position ++ presence (fun t : LineTime => octets 4 t.toNat) p.lastHeard ++ presence (octets 2) p.silenceMs
    ++ [flagOctet p.silent] ++ presence (signedOctets 4) p.lastOffset
    ++ presence (fun x : StepState => octets 1 x.code) p.reportedStep
    ++ [flagOctet p.ready, flagOctet p.lifted, flagOctet p.resume]
    ++ presence (fun n : IndexNo => octets 2 n.toNat) p.lastLowered ++ presence joinFieldsOctets p.join
    ++ octets 1 p.matched.code ++ octets 1 p.level ++ octets 1 p.cause ++ presence positionFieldsOctets p.position

/-! What a transaction shifts out (R174, R177). -/

/-- R174: a transaction of `n` octets shifts out the buffer as it stood at its start, and has read a response that it shifts out
in full. -/
def Cpt.transact (c : Cpt) (n : Nat) : Cpt :=
  { c with shifted := shiftOut c.response n
           responseRead := c.responseRead || (c.response.isSome && decide ((bufferOctets c.response).length ≤ n)) }

end Sys2Proof.Machine
end

