-- ==== Sys2Proof/Machine/Requests.lean ====
section
/-! DEFINITION. The meanings of the Cell Port's commands: one definition for each row from SET_ITEM to NONE_TRANSACTION. -/

namespace Sys2Proof.Machine

/-! Configuration and formation. -/

/-- SET_ITEM (R161, R147). A SETTLE_STAGE no greater than the marks of a CLAMPING fixture secures it at the next mark (DESIGN CHOICE,
assumption 16). -/
def execSetItem (item : ItemWrite) (s : State) : Answer :=
  let own := requestOctets (itemFields item).length
  if s.offline then
    match item with
    | .causeLevel cause level =>
      match causeLevelValue cause level with
      | some (c, l) =>
        .next ({ s with har := { s.har with causes := s.har.causes.set c.number ⟨l, s.har.isPending c⟩ } }.respond
          own 1 .done [])
      | none => .next (s.refuse own 1 .refusedValue)
    | other =>
      match s.items.store other with
      | some it => .next ({ s with items := it }.respond own 1 .done [])
      | none => .next (s.refuse own 1 .refusedValue)
  else .next (s.refuse own 1 .refusedState)

/-- R165: what JOIN sets up in each block, before any frame or cause. -/
def State.formed (s : State) : State :=
  let items := s.items.clamped
  let members := (items.members.getD []).length
  { s with
    items := items
    peers := List.replicate members Peer.initial
    ixs := { s.ixs with state := .forming, index := 0, joinTimer := some Config.joinRepeat }
    ltu := { s.ltu with nextBeat := some (firstLater s.ltu.lineTime), samples := [] }
    sim := { slots := List.replicate members .unknown, exitSlot := .unknown } }

/-- R117, R136, R120: JOIN sets the fixture status from pallet present; an EMPTY fixture is opened, and a seating that runs by
itself gets its timer. -/
def State.fixtureAtJoin (s : State) : State :=
  if s.inputs.palletPresent then
    let s := s.setFixture .unknown none
    match s.fxs.state with
    | .locating => { s with fxs := { s.fxs with stepTimer := some (Config.timeout s.items.locateTimeout) } }
    | .clamping => { s with fxs := { s.fxs with clampTimer := some (Config.timeout s.items.clampTimeout) } }
    | _ => s
  else (s.setFixture .empty none).keepOpen

/-- R150, R96: at JOIN the two inputs that are on raise their causes. -/
def State.raiseInputs (s : State) : State :=
  let s := if s.inputs.driveFault then s.raise .driveFault else s
  if s.inputs.emergency then s.raise .emergency else s

/-- R164, R165: JOIN is taken. -/
def State.takeJoin (s : State) : State :=
  let s := s.formed.fixtureAtJoin
  (s.queueFrame s.joinPayload).raiseInputs.close

/-- JOIN (R163). -/
def execJoin (s : State) : Answer :=
  if s.offline then
    if s.items.complete then
      if s.items.membersGood then .next (s.takeJoin.respond (requestOctets 0) 2 .done [])
      else .next (s.refuse (requestOctets 0) 2 .refusedValue)
    else .next (s.refuse (requestOctets 0) 2 .refusedIncomplete)
  else .next (s.refuse (requestOctets 0) 2 .refusedState)

/-! Readings. -/

/-- GET_STATUS (R175). -/
def execGetStatus (s : State) : Answer := .next (s.respond (requestOctets 0) 3 .done s.statusFields)

/-- GET_CAUSES (R159). -/
def execGetCauses (s : State) : Answer := .next (s.respond (requestOctets 0) 4 .done s.causesFields)

/-- GET_FIXTURE_RECORD (R135). -/
def execGetFixtureRecord (s : State) : Answer := .next (s.respond (requestOctets 0) 11 .done s.fixtureFields)

/-- GET_INCOMING (R135). -/
def execGetIncoming (s : State) : Answer :=
  if s.offline || s.isLoad then .next (s.refuse (requestOctets 0) 12 .refusedState)
  else
    match s.rst.incoming with
    | some i => .next (s.respond (requestOctets 0) 12 .done (incomingFields i))
    | none => .next (s.respond (requestOctets 0) 12 .nothing [])

/-- GET_IMAGE (R144). -/
def execGetImage (s : State) : Answer :=
  if s.offline then .next (s.refuse (requestOctets 0) 14 .refusedState) else .next (s.respond (requestOctets 0) 14 .done s.imageFields)

/-- GET_PEER (R176). -/
def execGetPeer (station : Byte) (s : State) : Answer :=
  if station.toNat = 0 ∨ 63 < station.toNat then .next (s.refuse (requestOctets 1) 15 .refusedValue)
  else if s.offline then .next (s.refuse (requestOctets 1) 15 .refusedState)
  else
    match s.peers[s.memberList.idxOf station.toNat]? with
    | some p => .next (s.respond (requestOctets 1) 15 .done (peerFields (s.memberList.idxOf station.toNat + 1) p))
    | none => .next (s.refuse (requestOctets 1) 15 .refusedValue)

/-! Causes. -/

/-- CLEAR_CAUSE (R151). -/
def execClearCause (cause : Byte) (s : State) : Answer :=
  match Cause.ofNumber cause.toNat with
  | none => .next (s.refuse (requestOctets 1) 5 .refusedValue)
  | some c =>
    if s.offline then .next (s.refuse (requestOctets 1) 5 .refusedState)
    else if s.condition c then .next (s.refuse (requestOctets 1) 5 .refusedActive)
    else .next ((if c.latched then s.unpend c else s).close.respond (requestOctets 1) 5 .done [])

/-- SET_ATTN_MASK (R158). -/
def execSetAttnMask (mask : Byte) (s : State) : Answer :=
  if mask.toNat ≤ 127 then
    .next ({ s with har := { s.har with attnMask := mask.setWidth 7 } }.refreshPins.respond (requestOctets 1) 6 .done [])
  else .next (s.refuse (requestOctets 1) 6 .refusedValue)

/-! Records. -/

/-- REPORT_RESULT (R121). -/
def execReportResult (code : Byte) (s : State) : Answer :=
  match MachResult.ofCode code.toNat with
  | none => .next (s.refuse (requestOctets 1) 7 .refusedValue)
  | some r =>
    if s.ixs.state = .working ∧ s.rst.status = .held then
      .next ({ s with ixs := { s.ixs with pendingResult := some r } }.respond (requestOctets 1) 7 .done [])
    else .next (s.refuse (requestOctets 1) 7 .refusedState)

/-- R129: the station's own READY mark is set, or a READY of the station is held in its transmit queue or buffer. -/
def State.readyOutstanding (s : State) : Bool :=
  (match s.peers[s.ownIdx]? with
    | some p => p.ready
    | none => false) || s.lpt.holds (ofKind .ready)

/-- R129, R130: a given record makes the fixture HELD, the station enters SEATING and has the fixture seated. -/
def State.takeRecord (s : State) (r : PalletRecord) : State :=
  (((s.setFixture .held (some r)).goStep .seat).enter .seating).seatFixture.close

/-- LOAD_ENTRY (R128, R129). -/
def execLoadEntry (octets : List Byte) (s : State) : Answer :=
  match loadableRecord octets with
  | none => .next (s.refuse (requestOctets octets.length) 8 .refusedValue)
  | some r =>
    if !s.isLoad || s.ixs.state != .working || s.rst.status != .empty || !s.inputs.palletPresent
        || s.readyOutstanding then .next (s.refuse (requestOctets octets.length) 8 .refusedState)
    else if s.inputs.plate.toNat ≠ r.id then .next (s.refuse (requestOctets octets.length) 8 .refusedIdentity)
    else .next ((s.takeRecord r).respond (requestOctets octets.length) 8 .done [])

/-- LOAD_FIXTURE (R128, R130). -/
def execLoadFixture (octets : List Byte) (s : State) : Answer :=
  match loadableRecord octets with
  | none => .next (s.refuse (requestOctets octets.length) 9 .refusedValue)
  | some r =>
    if s.ixs.state != .working || s.rst.status != .unknown || !s.inputs.palletPresent then
      .next (s.refuse (requestOctets octets.length) 9 .refusedState)
    else if s.inputs.plate.toNat ≠ r.id then .next (s.refuse (requestOctets octets.length) 9 .refusedIdentity)
    else .next ((s.takeRecord r).respond (requestOctets octets.length) 9 .done [])

/-- R131: the states in which DECLARE_EMPTY is taken. -/
def SeqState.declares : SeqState → Bool
  | .forming | .working | .seating => true
  | _ => false

/-- R131, R120, R114: the fixture is declared EMPTY and opened; a wait for the fixture may end with it. -/
def State.declareEmpty (s : State) : State := (s.setFixture .empty none).keepOpen.close

/-- DECLARE_EMPTY (R131). -/
def execDeclareEmpty (s : State) : Answer :=
  if s.ixs.state.declares && s.rst.status == .unknown && !s.inputs.palletPresent then
    .next (s.declareEmpty.respond (requestOctets 0) 10 .done [])
  else .next (s.refuse (requestOctets 0) 10 .refusedState)

/-- TAKE_EXIT_RECORD (R133). -/
def execTakeExitRecord (s : State) : Answer :=
  if s.offline || !s.isUnload then .next (s.refuse (requestOctets 0) 13 .refusedState)
  else
    match s.rst.exitQueue with
    | r :: rest =>
      .next ({ s with rst := { s.rst with exitQueue := rest } }.close.respond (requestOctets 0) 13 .done (recordOctets r))
    | [] => .next (s.respond (requestOctets 0) 13 .nothing [])

/-! Resume (R63). -/

/-- R63.1, Table 5-4: DRIVE_ENABLE is raised; a shuttle that is HALTED leaves it for HALTED_MID or a reposition. -/
def State.resumeDrive (s : State) : State :=
  if s.ssv.shuttle = .halted then s.driveOn .haltedMid else { s with ssv := { s.ssv with drive := true } }

/-- R63.3, R63.4: with the encoder in the window RESUME is queued at once, and otherwise a reposition to the stop setpoint runs first
(assumption 29). It is queued at once also where the reposition of an earlier RESUME still runs (DESIGN CHOICE, assumption 42). -/
def State.resumeOffer (s : State) : State :=
  if s.atStopSetpoint then s.offerResume
  else
    let s := { s with ixs := { s.ixs with resumeStep := .repositioning } }.moveShuttle .repositioning
    s.reposition .toStop (s.pgn.stopSetpoint.getD 0 : Nat)

/-- RESUME (R63). -/
def execResume (s : State) : Answer :=
  if s.ixs.state = .stopped then
    if s.har.stopPending then .next (s.refuse (requestOctets 0) 16 .refusedActive)
    else .next ((s.resumeDrive.enter .resumeWait).resumeOffer.close.respond (requestOctets 0) 16 .done [])
  else .next (s.refuse (requestOctets 0) 16 .refusedState)

/-! Transactions that hand no request on. -/

/-- MALFORMED_REQUEST (R173, R177): a malformed or cut request is refused under its kind octet as received. -/
def execMalformedRequest (kind : Byte) (s : State) : Answer := .next (s.refuse 1 kind .refusedValue)

/-- NONE_TRANSACTION (R174): `octets` octets are shifted out of the response buffer. -/
def execNoneTransaction (octets : Nat) (s : State) : Answer := .next { s with cpt := s.cpt.transact octets }

end Sys2Proof.Machine
end

