-- ==== Sys2Proof/Machine/Timers.lean ====
section
/-! DEFINITION. The meanings of the events that time or the state itself brings about outside motion: timer expiries, beat
instants, silence, the JOIN repetition, the offer of READY, the exit from FORMING, the start of homing, and settle marks.
Each takes place where its timer runs or its conditions hold, and changes nothing elsewhere (assumptions 7 and 8). -/

namespace Sys2Proof.Machine

/-! Line Port and Line Time Unit. -/

/-- FOREIGN_FRAME_TIMER_EXPIRY (R15). -/
def execForeignFrameTimerExpiry (s : State) : Answer :=
  if s.lpt.foreignTimer.isSome then .next { s with lpt := { s.lpt with foreignTimer := none } }.close else .next s

/-- BEAT_INSTANT (R22, R31). -/
def execBeatInstant (s : State) : Answer :=
  match s.ltu.nextBeat with
  | some b => .next (s.beat b).close
  | none => .next s

/-- R32: a running silence count stands at the limit of silence or above it (DEDUCED, assumption 19). -/
def Peer.fallSilent (p : Peer) : Peer := { p with silence := p.silence.map (max Config.silentFrom) }

/-- MEMBER_SILENT (R33): the member at a position, counted from 1. -/
def execMemberSilent (position : Nat) (s : State) : Answer :=
  if 1 ≤ position then .next (s.updatePeer (position - 1) Peer.fallSilent).close else .next s

/-! Formation. -/

/-- JOIN_REPETITION (R167). -/
def execJoinRepetition (s : State) : Answer :=
  if s.ixs.joinTimer.isSome && s.ixs.state == .forming then
    .next ({ s with ixs := { s.ixs with joinTimer := some Config.joinRepeat } }.queueFrame s.joinPayload)
  else .next s

/-- R171: the conditions under which the station leaves FORMING. -/
def State.mayLeaveForming (s : State) : Bool :=
  s.ixs.state == .forming && s.peers.all (fun p => p.matched == .yes) && s.ltu.step == .fine
    && s.ssv.shuttle == .atHome && (s.rst.status != .empty || s.fxs.state == .open)

/-- R171, R167: the station enters WORKING, its JOIN repetition stopped and its JOIN withdrawn. -/
def State.leaveForming (s : State) : State :=
  { s with ixs := { s.ixs with state := .working, joinTimer := none } }.withdraw (ofKind .join)

/-- FORMING_EXIT (R171, R167). -/
def execFormingExit (s : State) : Answer :=
  if s.mayLeaveForming then .next s.leaveForming.close else .next s

/-- R88: the conditions under which homing starts. -/
def State.mayHome (s : State) : Bool :=
  s.ixs.state == .forming && s.ssv.shuttle == .unhomed && s.ssv.liftState == .down && !s.har.anyPendingAt 7
    && !s.har.isPending .returnFault

/-- R88, R89: homing starts, off the home cam first if the sensor is on. -/
def State.startHoming (s : State) : State :=
  let s := { s with ssv := { s.ssv with drive := true, homingTimer := some Config.homingTime, shuttle := .homing } }
  if s.inputs.home then
    { s with ssv := { s.ssv with homingStage := .offCam } }.reposition .offCam (s.encoderCount + Config.homeCamTravel)
  else s.startHomingRun

/-- HOMING_START (R88, R89). -/
def execHomingStart (s : State) : Answer :=
  if s.mayHome then .next s.startHoming else .next s

/-! Index Sequencer. -/

/-- R42: what the fixture must be for READY. -/
def State.fixtureReady (s : State) : Bool :=
  s.rst.status == .empty || (s.rst.status == .held && s.fxs.state == .secured && s.ixs.pendingResult.isSome)

/-- R42: the exit queue has room for the record of a HELD fixture at the unload station. -/
def State.exitRoom (s : State) : Bool :=
  !(s.isUnload && s.rst.status == .held) || decide (s.rst.exitQueue.length < Config.exitCapacity)

/-- R42: the conditions under which a station in WORKING offers READY. -/
def State.mayOfferReady (s : State) : Bool :=
  s.ixs.state == .working && s.fixtureReady && s.inputs.machClear && s.ssv.shuttle == .atHome && s.ltu.step == .fine
    && decide (s.har.announcedLevel ≤ 3) && s.exitRoom

/-- READY_OFFER (R42, R122). -/
def execReadyOffer (s : State) : Answer :=
  if s.mayOfferReady then .next ((s.queueFrame s.readyPayload).enter .ready).close else .next s

/-- LIFT_BARRIER_TIMER_EXPIRY (R49). -/
def execLiftBarrierTimerExpiry (s : State) : Answer :=
  if s.ixs.liftBarrierTimer.isSome && (s.ixs.state == .releasing || s.ixs.state == .liftWait) then
    .next ({ s with ixs := { s.ixs with liftBarrierTimer := none } }.raise .liftBarrierTimeout).close
  else .next s

/-- The steps that the lowering timer bounds (R53, R58). -/
def IndexStep.lowers : IndexStep → Bool
  | .abandonLift | .inPosition | .liftDown => true
  | _ => false

/-- LOWERING_TIMER_EXPIRY (R53, R58, R61). -/
def execLoweringTimerExpiry (s : State) : Answer :=
  if s.ixs.loweringTimer.isSome && s.ixs.step.lowers then
    .next ({ s with ixs := { s.ixs with loweringTimer := none, lowerExpired := some s.ixs.step } }.raise
      .lowerFault).close
  else .next s

/-- UPSTREAM_TIMER_EXPIRY (R60, R61). -/
def execUpstreamTimerExpiry (s : State) : Answer :=
  if s.ixs.upstreamTimer.isSome && s.ixs.step == .upstream then
    .next ({ s with ixs := { s.ixs with upstreamTimer := none, lowerExpired := some .upstream } }.raise
      .lowerFault).close
  else .next s

/-! Shuttle Supervisor. -/

/-- R89: what the expiry of the homing timer does to the homing in progress. A homing run that still waits for its local origin counts as
creeping and ramps down from period 1, and a reposition that waits for its own counts as running (DESIGN CHOICE, assumption 46). -/
def State.giveUpHoming (s : State) : State :=
  match s.ssv.homingStage with
  | .creep => { s with pgn := s.pgn.windDown, ssv := { s.ssv with homingStage := .rampFailed } }
  | .edgeRamp => { s with ssv := { s.ssv with homingStage := .rampFailed } }
  | .offCam | .toZero => { s with ssv := { s.ssv with homingStage := .repositionFailed } }
  | .check => s.failHoming
  | _ => s

/-- HOMING_TIMER_EXPIRY (R89). -/
def execHomingTimerExpiry (s : State) : Answer :=
  if s.ssv.homingTimer.isSome then
    .next ({ s with ssv := { s.ssv with homingTimer := none } }.giveUpHoming.raise .returnFault).close
  else .next s

/-- HOME_CHECK_TIMER_EXPIRY (R90): the check goes on. -/
def execHomeCheckTimerExpiry (s : State) : Answer :=
  if s.ssv.homeCheckTimer.isSome then
    .next ({ s with ssv := { s.ssv with homeCheckTimer := none } }.raise .returnFault).close
  else .next s

/-! Fixture Sequencer. -/

/-- RELEASE_STEP_TIMER_EXPIRY (R108). -/
def execReleaseStepTimerExpiry (s : State) : Answer :=
  if s.fxs.stepTimer.isSome && s.fxs.state == .opening then
    .next ({ s with fxs := { s.fxs with stepTimer := none } }.raise .releaseFault).close
  else .next s

/-- LOCATE_TIMER_EXPIRY (R109). -/
def execLocateTimerExpiry (s : State) : Answer :=
  if s.fxs.stepTimer.isSome && s.fxs.state == .locating then
    .next ({ s with fxs := { s.fxs with stepTimer := none } }.raise .locateFault).close
  else .next s

/-- CLAMP_TIMER_EXPIRY (R110). -/
def execClampTimerExpiry (s : State) : Answer :=
  if s.fxs.clampTimer.isSome && s.fxs.state == .clamping then
    .next ({ s with fxs := { s.fxs with clampTimer := none } }.raise .clampNotSettled).close
  else .next s

/-- Table 6-4: there are seven marks. -/
def markLimit : Nat := 7

/-- R111: a further mark can be set. -/
def State.mayMark (s : State) : Bool := s.fxs.settling s.inputs && decide (s.fxs.marks < markLimit)

/-- R110, R111: the next mark is set, and a fixture that becomes SECURED is reported. -/
def State.setSettleMark (s : State) : State :=
  let t := { s with fxs := s.fxs.setMark s.items.settleStage }
  if s.fxs.state = .clamping ∧ t.fxs.state = .secured then t.fixtureReported else t

/-- SETTLE_MARK_SET (R110, R111). -/
def execSettleMarkSet (s : State) : Answer :=
  if s.mayMark then .next s.setSettleMark.close else .next s

end Sys2Proof.Machine
end

