-- ==== Sys2Proof/Machine/Clock.lean ====
section
/-! DEFINITION. What a 740 does by itself while no command waits (assumption 3): the events that follow at once from its state, and
one microsecond of elapsed time with the events that then fall due, the changes that a sample of the inputs takes among them. -/

namespace Sys2Proof.Machine

/-- R71: line time has reached the origin of a common profile that waits for it. -/
def State.originDue (s : State) : Bool := s.awaitsOrigin && beatReached s.ltu.lineTime s.pgn.origin

/-- R71: a line time has reached the end of the period in progress of a common profile. -/
def State.commonPeriodOver (s : State) (t : LineTime) : Bool :=
  s.pgn.kind.common && s.pgn.begun
    && beatReached t (s.pgn.origin + BitVec.ofNat 32 ((s.pgn.counter + 1) * Config.period))

/-- R71, R72: the step that line time took at this microsecond has carried it to the end of the period that was in progress. A period that
begins after the step ends one microsecond later, though the step has passed its end (assumption 39). -/
def State.stepEndsPeriod (s : State) : Bool :=
  match s.pgn.stepFrom with
  | some t => s.periodRuns && s.commonPeriodOver s.ltu.lineTime && !s.commonPeriodOver t
  | none => false

/-- The event that the state itself brings about at this instant (R42, R71, R72, R88, R171). -/
def State.triggered (s : State) : Option Instr :=
  if s.originDue then some .profileOrigin
  else if s.stepEndsPeriod then some .periodEnd
  else if s.mayHome then some .homingStart
  else if s.mayLeaveForming then some .formingExit
  else if s.mayOfferReady then some .readyOffer
  else none

/-! One microsecond. -/

/-- A running timer counts down. -/
def countDown (t : Option Nat) : Option Nat := t.map (· - 1)

/-- R32: the silence count advances with elapsed time and stops at its limit. -/
def Peer.age (p : Peer) : Peer := { p with silence := p.silence.map fun us => min (us + 1) Config.silenceLimit }

/-- R111: the settle counter advances while it counts, and stops at 1,024 ms. -/
def Fxs.settleOn (f : Fxs) (i : Inputs) : Fxs :=
  if f.settling i then { f with settle := min (f.settle + 1) (Config.settleThreshold markLimit * 1000) } else f

/-- R20, R32 and the timers of every block: one microsecond passes. -/
def State.advance (s : State) : State :=
  { s with
    ltu := { s.ltu with lineTime := s.ltu.lineTime + 1 }
    sampling := { s.sampling with clock := s.sampling.clock + 1 }
    peers := s.peers.map Peer.age
    lpt := { s.lpt with foreignTimer := countDown s.lpt.foreignTimer }
    ixs := { s.ixs with
      joinTimer := countDown s.ixs.joinTimer
      liftBarrierTimer := countDown s.ixs.liftBarrierTimer
      loweringTimer := countDown s.ixs.loweringTimer
      upstreamTimer := countDown s.ixs.upstreamTimer
      sinceCompletion := s.ixs.sinceCompletion + 1 }
    pgn := { s.pgn with localTimer := countDown s.pgn.localTimer, stepFrom := none }
    ssv := { s.ssv with
      homingTimer := countDown s.ssv.homingTimer
      homeCheckTimer := countDown s.ssv.homeCheckTimer
      wordAge := min (s.ssv.wordAge + 1) Config.wordRepeat
      encoderQuiet := min (s.ssv.encoderQuiet + 1) Config.encoderRest }
    fxs := { s.fxs with
      stepTimer := countDown s.fxs.stepTimer
      clampTimer := countDown s.fxs.clampTimer }.settleOn s.inputs }

/-! The events that fall due. -/

/-- A timer has run out. -/
def ranOut (t : Option Nat) : Bool := t == some 0

/-- R21: line time has reached the next beat boundary. -/
def State.beatDue (s : State) : Bool :=
  match s.ltu.nextBeat with
  | some b => beatReached s.ltu.lineTime b
  | none => false

/-- R33: the members whose silence count reaches the limit of silence, positions numbered from `n`. -/
def silentNow (n : Nat) : List Peer → List Instr
  | [] => []
  | p :: rest => dueIf (p.silence == some Config.silentFrom) (.memberSilent n) ++ silentNow (n + 1) rest

/-- R71, R73: the period in progress ends. One whose end has passed when it begins, period 1 of a profile begun late among them, ends
one microsecond later (DEDUCED, assumption 39). -/
def State.periodDue (s : State) : Bool :=
  s.periodRuns && (s.commonPeriodOver s.ltu.lineTime || (s.pgn.kind.localKind && ranOut s.pgn.localTimer))

/-- R111: the settle counter stands at the threshold of the next mark. -/
def State.markDue (s : State) : Bool :=
  s.mayMark && s.fxs.settle == Config.settleThreshold (s.fxs.marks + 1) * 1000

/-- The events due at this instant, in the order in which the model takes them (assumption 11). -/
def State.due (s : State) : List Instr :=
  dueIf (ranOut s.lpt.foreignTimer) .foreignFrameTimerExpiry
    ++ dueIf s.beatDue .beatInstant
    ++ silentNow 1 s.peers
    ++ dueIf (ranOut s.ixs.joinTimer) .joinRepetition
    ++ dueIf (ranOut s.ixs.liftBarrierTimer) .liftBarrierTimerExpiry
    ++ dueIf (ranOut s.ixs.loweringTimer) .loweringTimerExpiry
    ++ dueIf (ranOut s.ixs.upstreamTimer) .upstreamTimerExpiry
    ++ dueIf (ranOut s.ssv.homingTimer) .homingTimerExpiry
    ++ dueIf (ranOut s.ssv.homeCheckTimer) .homeCheckTimerExpiry
    ++ dueIf (ranOut s.fxs.stepTimer && s.fxs.state == .opening) .releaseStepTimerExpiry
    ++ dueIf (ranOut s.fxs.stepTimer && s.fxs.state == .locating) .locateTimerExpiry
    ++ dueIf (ranOut s.fxs.clampTimer) .clampTimerExpiry
    ++ dueIf s.markDue .settleMarkSet
    ++ dueIf s.originDue .profileOrigin
    ++ dueIf (s.awaitsLocal && ranOut s.pgn.localTimer) .localProfileStart
    ++ dueIf s.periodDue .periodEnd
    ++ dueIf (s.ssv.wordWaiting && s.lineFree) .setpointWordEnd
    ++ dueIf (s.ssv.wordAge == Config.wordRepeat) .setpointWordRepeat
    ++ (if s.sampling.due then s.sampleEvents else [])

/-- R178: the samples are taken when they are due. -/
def State.sampleWhenDue (s : State) : Sampling := if s.sampling.due then s.sampleLines else s.sampling

/-- One microsecond passes, and the events that then fall due wait. -/
def State.tick (s : State) : State :=
  { s.advance with sampling := s.advance.sampleWhenDue, pending := s.advance.due }

/-- What the 740 does with no command waiting. -/
def State.runOn (s : State) : State :=
  match s.triggered with
  | some c => { s with pending := [c] }
  | none => s.tick

end Sys2Proof.Machine
end

