-- ==== Sys2Proof/Machine/Dispatch.lean ====
section
/-! DEFINITION. One arm per command: the direct call of its meaning. -/

namespace Sys2Proof.Machine

/-- The effect of a command on the 740, its queue of waiting commands apart. -/
def exec (i : Instr) (s : State) : Host.Outcome State Fault Refusal :=
  match i with
  | .setItem item => Sys2Proof.Machine.execSetItem item s
  | .join => Sys2Proof.Machine.execJoin s
  | .getStatus => Sys2Proof.Machine.execGetStatus s
  | .getCauses => Sys2Proof.Machine.execGetCauses s
  | .clearCause cause => Sys2Proof.Machine.execClearCause cause s
  | .setAttnMask mask => Sys2Proof.Machine.execSetAttnMask mask s
  | .reportResult code => Sys2Proof.Machine.execReportResult code s
  | .loadEntry octets => Sys2Proof.Machine.execLoadEntry octets s
  | .loadFixture octets => Sys2Proof.Machine.execLoadFixture octets s
  | .declareEmpty => Sys2Proof.Machine.execDeclareEmpty s
  | .getFixtureRecord => Sys2Proof.Machine.execGetFixtureRecord s
  | .getIncoming => Sys2Proof.Machine.execGetIncoming s
  | .takeExitRecord => Sys2Proof.Machine.execTakeExitRecord s
  | .getImage => Sys2Proof.Machine.execGetImage s
  | .getPeer station => Sys2Proof.Machine.execGetPeer station s
  | .resume => Sys2Proof.Machine.execResume s
  | .malformedRequest kind => Sys2Proof.Machine.execMalformedRequest kind s
  | .noneTransaction octets => Sys2Proof.Machine.execNoneTransaction octets s
  | .reset cause shortPulse => Sys2Proof.Machine.execReset cause shortPulse s
  | .linkIdleSeen => Sys2Proof.Machine.execLinkIdleSeen s
  | .frameStart own => Sys2Proof.Machine.execFrameStart own s
  | .arbitrationLost => Sys2Proof.Machine.execArbitrationLost s
  | .frameMarked => Sys2Proof.Machine.execFrameMarked s
  | .foreignFrameObserved frame => Sys2Proof.Machine.execForeignFrameObserved frame s
  | .beatObserved header step => Sys2Proof.Machine.execBeatObserved header step s
  | .joinObserved header fields => Sys2Proof.Machine.execJoinObserved header fields s
  | .readyObserved header fields => Sys2Proof.Machine.execReadyObserved header fields s
  | .liftedObserved header index => Sys2Proof.Machine.execLiftedObserved header index s
  | .loweredObserved header index => Sys2Proof.Machine.execLoweredObserved header index s
  | .resumeObserved header index stopSetpoint => Sys2Proof.Machine.execResumeObserved header index stopSetpoint s
  | .stopObserved header index cause level => Sys2Proof.Machine.execStopObserved header index cause level s
  | .holdObserved header level cause => Sys2Proof.Machine.execHoldObserved header level cause s
  | .positionObserved header fields => Sys2Proof.Machine.execPositionObserved header fields s
  | .handoverObserved header index content => Sys2Proof.Machine.execHandoverObserved header index content s
  | .foreignFrameTimerExpiry => Sys2Proof.Machine.execForeignFrameTimerExpiry s
  | .beatInstant => Sys2Proof.Machine.execBeatInstant s
  | .memberSilent position => Sys2Proof.Machine.execMemberSilent position s
  | .joinRepetition => Sys2Proof.Machine.execJoinRepetition s
  | .readyOffer => Sys2Proof.Machine.execReadyOffer s
  | .formingExit => Sys2Proof.Machine.execFormingExit s
  | .homingStart => Sys2Proof.Machine.execHomingStart s
  | .liftBarrierTimerExpiry => Sys2Proof.Machine.execLiftBarrierTimerExpiry s
  | .loweringTimerExpiry => Sys2Proof.Machine.execLoweringTimerExpiry s
  | .upstreamTimerExpiry => Sys2Proof.Machine.execUpstreamTimerExpiry s
  | .homingTimerExpiry => Sys2Proof.Machine.execHomingTimerExpiry s
  | .homeCheckTimerExpiry => Sys2Proof.Machine.execHomeCheckTimerExpiry s
  | .releaseStepTimerExpiry => Sys2Proof.Machine.execReleaseStepTimerExpiry s
  | .locateTimerExpiry => Sys2Proof.Machine.execLocateTimerExpiry s
  | .clampTimerExpiry => Sys2Proof.Machine.execClampTimerExpiry s
  | .settleMarkSet => Sys2Proof.Machine.execSettleMarkSet s
  | .profileOrigin => Sys2Proof.Machine.execProfileOrigin s
  | .localProfileStart => Sys2Proof.Machine.execLocalProfileStart s
  | .periodEnd => Sys2Proof.Machine.execPeriodEnd s
  | .setpointWordRepeat => Sys2Proof.Machine.execSetpointWordRepeat s
  | .setpointWordEnd => Sys2Proof.Machine.execSetpointWordEnd s
  | .machClearDrop => Sys2Proof.Machine.execMachClearDrop s
  | .emergencyOn => Sys2Proof.Machine.execEmergencyOn s
  | .driveFaultOn => Sys2Proof.Machine.execDriveFaultOn s
  | .clampPressureOff => Sys2Proof.Machine.execClampPressureOff s
  | .clampPressureMade => Sys2Proof.Machine.execClampPressureMade s
  | .locatorsEngaged first second => Sys2Proof.Machine.execLocatorsEngaged first second s
  | .locatorOff first second => Sys2Proof.Machine.execLocatorOff first second s
  | .palletPresentChange present => Sys2Proof.Machine.execPalletPresentChange present s
  | .plateCodeChange code => Sys2Proof.Machine.execPlateCodeChange code s
  | .liftUpSensorOn => Sys2Proof.Machine.execLiftUpSensorOn s
  | .liftDownSensorOn => Sys2Proof.Machine.execLiftDownSensorOn s
  | .liftSensorOff up => Sys2Proof.Machine.execLiftSensorOff up s
  | .homeSensorChange on => Sys2Proof.Machine.execHomeSensorChange on s
  | .encoderEdge downstream => Sys2Proof.Machine.execEncoderEdge downstream s
  | .machClearOn => Sys2Proof.Machine.execMachClearOn s
  | .emergencyOff => Sys2Proof.Machine.execEmergencyOff s
  | .driveFaultOff => Sys2Proof.Machine.execDriveFaultOff s
  | .homeCapture differs => Sys2Proof.Machine.execHomeCapture differs s

end Sys2Proof.Machine
end

