-- ==== Sys2Proof/Safety.lean ====
section
/-! DEFINITION. What the manual says holds of a 740 at every instant: the laws that every step keeps, over the state alone. -/

namespace Sys2Proof.Safety

open Sys2Proof.Machine

/-- R9: the transmit queue holds at most one frame of each kind, highest kind priority first. -/
def QueueOrdered (s : State) : Prop :=
  s.lpt.queue.Pairwise fun a b => a.payload.kind.priority < b.payload.kind.priority

/-- R147: every cause has a level from its floor to 7. -/
def LevelsLegal (s : State) : Prop :=
  s.har.causes.length = Cause.all.length ∧ ∀ c : Cause, c.floor ≤ s.har.level c ∧ s.har.level c ≤ 7

/-- R148: each self-clearing cause of level 1 or more is pending exactly while its condition is present, and one of level 0 is
not pending. -/
def CausesSettled (s : State) : Prop :=
  ∀ c ∈ Cause.selfClearing, s.har.isPending c = (s.condition c && decide (1 ≤ s.har.level c))

/-- R152: the announced pair is the one that the pending causes give. -/
def PairAnnounced (s : State) : Prop := (s.har.announcedLevel, s.har.announcedCause) = s.har.pair

/-- R43, R11: at an announced level of 4 or higher the station is not in READY and no READY is in its transmit queue; one in the
transmit buffer has a withdrawal held over its attempt. -/
def ReadyWithdrawn (s : State) : Prop :=
  4 ≤ s.har.announcedLevel →
    s.ixs.state ≠ .ready ∧ (∀ f ∈ s.lpt.queue, f.payload.kind ≠ .ready)
      ∧ ∀ f, s.lpt.buffer = some f → f.payload.kind = .ready → s.lpt.withdrawHeld = true

/-- R148, R150, R160: in OFFLINE no cause is pending, the drive is dropped and no peer record exists. -/
def OfflineQuiet (s : State) : Prop :=
  s.ixs.state = .offline →
    (∀ e ∈ s.har.causes, e.pending = false) ∧ s.ssv.drive = false ∧ s.peers = []

/-- R94: DRIVE_ENABLE is not asserted while a cause of level 7 is pending. -/
def DriveDropped (s : State) : Prop := s.har.anyPendingAt 7 = true → s.ssv.drive = false

/-- R120: a fixture record is present exactly while the fixture status is HELD. -/
def RecordWithHeld (s : State) : Prop := s.rst.record.isSome = true ↔ s.rst.status = .held

/-- R29: the fine run never exceeds the coarse run, neither exceeds 255, and the step state is the one the runs give. -/
def StepFromRuns (s : State) : Prop :=
  s.ltu.fineRun ≤ s.ltu.coarseRun ∧ s.ltu.coarseRun ≤ 255 ∧ s.ltu.step = stepOfRuns s.ltu.coarseRun s.ltu.fineRun

/-- R24: the sample list holds at most two samples from any one member. -/
def SamplesBounded (s : State) : Prop := ∀ m : Nat, (s.ltu.samples.filter fun x => x.member == m).length ≤ 2

/-- R142: the pallet id of a slot. -/
def slotId : Slot → Option Nat
  | .pallet id _ _ => some id
  | _ => none

/-- R142: no pallet id stands in more than one slot of the image, the exit slot included. -/
def ImageDistinct (s : State) : Prop := ((s.sim.slots ++ [s.sim.exitSlot]).filterMap slotId).Nodup

/-- R137, R35: outside OFFLINE there is one peer record and one member slot for each entry of MEMBERS. -/
def OneRecordEach (s : State) : Prop :=
  s.ixs.state ≠ .offline → s.peers.length = s.memberCount ∧ s.sim.slots.length = s.memberCount

/-- Table 6-2, R111: what the outputs, the opening step and the marks are in each fixture state. -/
def FixtureOutputs (s : State) : Prop :=
  s.fxs.marks ≤ 7 ∧
    match s.fxs.state with
    | .open => s.fxs.release = true ∧ s.fxs.withdraw = true ∧ s.fxs.openingStep = .none ∧ s.fxs.marks = 0
    | .opening => s.fxs.release = true ∧ s.fxs.marks = 0 ∧
        ((s.fxs.openingStep = .one ∧ s.fxs.withdraw = false) ∨ (s.fxs.openingStep = .two ∧ s.fxs.withdraw = true))
    | .locating => s.fxs.withdraw = false ∧ s.fxs.openingStep = .none ∧ s.fxs.marks = 0
    | .clamping => s.fxs.release = false ∧ s.fxs.withdraw = false ∧ s.fxs.openingStep = .none
    | .secured => s.fxs.release = false ∧ s.fxs.withdraw = false ∧ s.fxs.openingStep = .none

/-- R116, R156, R157, R158: the section level and the outputs are what their conditions give. -/
def OutputsFollow (s : State) : Prop :=
  s.har.sectionLevel = s.sectionLevelNow ∧ s.pins.machPermit = s.machPermitNow
    ∧ s.pins.sectionStop = s.sectionStopNow ∧ s.pins.attn = s.attnNow

/-- R6: the repeat count stays below the 16 at which its frame is removed. -/
def CountBelowLimit (s : State) : Prop := s.lpt.count < 16

/-! The arrival of a frame. -/

/-- A frame of a member arrives: the frame on the link started at `clock`, its sender is the member of index `m`, and it passes the
tests of R4 and R14. It is the station's own attempt (`own`), or the station sends nothing and another member has sent it. -/
def Arrives (s : State) (h : Header) (p : Payload) (m : Nat) (own : Bool) (clock : FrameClock) : Prop :=
  s.lpt.idleSeen = true ∧ s.lpt.frame = some clock ∧ wellFormedFrame h p = true ∧ s.ixs.state ≠ .offline
    ∧ h.sectionId = s.sectionId ∧ h.sender ∈ s.memberList ∧ s.memberList.idxOf h.sender = m
    ∧ if own then (∃ f, s.lpt.buffer = some f ∧ f.payload = p) ∧ h.sender = s.stationNo ∧ h.stamp = clock.localStart
      else s.lpt.buffer = none ∧ h.sender ≠ s.stationNo

/-- R6, R10, R32: what the arrival itself does, whatever the frame: an own attempt leaves the transmit buffer and clears the repeat
count, and the sender has been heard. -/
def Arrived (s : State) (m : Nat) (own : Bool) : State :=
  { s with
    lpt := if own then { s.lpt with buffer := none, withdrawHeld := false, frame := none, counted := none, count := 0 }
      else { s.lpt with frame := none }
    peers := updateAt (fun p => { p with lastHeard := some s.ltu.lineTime, silence := some 0 }) m s.peers }

/-! What follows a change at once. -/

/-- A frame through which causes act: HOLD (R153), JOIN (R153), STOP (R50) or READY (R43). -/
def ofCauses (p : Payload) : Bool :=
  p.kind == .hold || p.kind == .join || p.kind == .stop || p.kind == .ready

/-- The announced pair is the same in two states. -/
def SamePair (u t : State) : Prop :=
  t.har.announcedLevel = u.har.announcedLevel ∧ t.har.announcedCause = u.har.announcedCause

/-- The frames of a kind stand in the transmit queue of two states alike. -/
def SameFrames (k : FrameKind) (u t : State) : Prop :=
  ∀ f : QueuedFrame, f.payload.kind = k → (f ∈ t.lpt.queue ↔ f ∈ u.lpt.queue)

/-- No cause of level 6 or 7 has become pending where R50 queues STOP. -/
def NoStopCause (u t : State) : Prop :=
  u.ixs.state.queuesStop = true → ∀ c : Cause, 6 ≤ u.har.level c → u.har.isPending c = false → t.har.isPending c = false

/-- R95, Table 5-4: the drive and the profile of `t` are those that the end of the last cause of level 7 makes of those of `u`. A shuttle
that is HALTED restarts by its halted-from, from the encoder count; one halted from a common profile, or from a reposition to the stop
setpoint, stays HALTED with the drive as it is. What becomes of the reposition target where no reposition or return starts is the model's
choice (assumption 44). -/
def Restarted (u t : State) : Prop :=
  let x := u.ssv.encoder.toInt
  let move (kind : PgnKind) (target : Int) (limit : Nat) : Pgn :=
    u.pgn.prepareMove kind x target limit u.items.accel u.ltu.lineTime
  let on (st : ShuttleState) (target : Option Int) (use : Option RepositionUse) : Ssv :=
    { u.ssv with drive := true, shuttle := st, haltedFrom := none, repositionTarget := target, repositionUse := use }
  let toHome := t.ssv = on .returning (some 0) (some .toHome) ∧ t.pgn = move .reposition 0 u.items.homingSpeed
  let toPitch := t.ssv = on .repositioning (some (u.pitch : Int)) (some .toPitch)
    ∧ t.pgn = move .reposition u.pitch u.items.homingSpeed
  let stays (v : Ssv) := t.ssv = v ∧ t.pgn = u.pgn
  if u.ssv.shuttle ≠ .halted then stays u.ssv
  else match u.ssv.haltedFrom with
    | some .atHome => toHome
    | some .returning =>
      if 0 < x then t.ssv = on .returning none none ∧ t.pgn = move .ret 0 u.items.vmax else toHome
    | some .atEnd => toPitch
    | some .repositioning =>
      if u.ssv.repositionUse = some .toPitch then toPitch
      else stays { u.ssv with haltedFrom := some .haltedMid, repositionTarget := none, repositionUse := none }
    | some .unhomed | some .homing => stays { u.ssv with shuttle := .unhomed, haltedFrom := none }
    | _ => stays u.ssv

/-- No cause of level 7 has become pending. -/
def NoneHalts (u t : State) : Prop :=
  ∀ c : Cause, u.har.level c = 7 → t.har.isPending c = true → u.har.isPending c = true

/-- R147: one entry for each cause. -/
def EveryCause (s : State) : Prop := s.har.causes.length = Cause.all.length

/-- `t` is `u` after what follows at once from a change that the Hold Arbiter may act on: causes other than those of `exc` keep
their level and, if latched, their pending flag; self-clearing causes of level 1 or more settle on their conditions (R148) and
change nothing where they have settled; HOLD, JOIN, STOP and READY may be queued or withdrawn (R43, R50, R153); READY falls back to
WORKING (R43); the shuttle may be halted or restarted by a cause of level 7 (R94, R95); the section level and the outputs are formed
anew. Everything else stays. -/
structure Follows (exc : List Cause) (u t : State) : Prop where
  ltu : t.ltu = u.ltu
  peers : t.peers = u.peers
  fxs : t.fxs = u.fxs
  inputs : t.inputs = u.inputs
  sampling : t.sampling = u.sampling
  rst : t.rst = u.rst
  sim : t.sim = u.sim
  cpt : t.cpt = u.cpt
  items : t.items = u.items
  freeTaken : t.freeTaken = u.freeTaken
  pending : t.pending = u.pending
  ixs : t.ixs = u.ixs ∨ (u.ixs.state = .ready ∧ t.ixs = { u.ixs with state := .working })
  link : t.lpt = { u.lpt with queue := t.lpt.queue, withdrawHeld := t.lpt.withdrawHeld, nextId := t.lpt.nextId }
  queue : ∀ f : QueuedFrame, ofCauses f.payload = false → (f ∈ t.lpt.queue ↔ f ∈ u.lpt.queue)
  /-- R9: a frame that is queued is a new one. -/
  fresh : u.lpt.nextId ≤ t.lpt.nextId ∧ ∀ f ∈ t.lpt.queue, f ∈ u.lpt.queue ∨ u.lpt.nextId ≤ f.id
  /-- R11: a withdrawal stays held. -/
  held : u.lpt.withdrawHeld = true → t.lpt.withdrawHeld = true
  /-- R153: a JOIN that is queued with the pair of its instant has the pair that the station announces. -/
  join : (∃ f ∈ u.lpt.queue, f.payload = u.joinPayload) → ∃ f ∈ t.lpt.queue, f.payload = t.joinPayload
  /-- R153: a JOIN queued again has the station's index number and forming flag. -/
  joins : ∀ f ∈ t.lpt.queue, f.payload.kind = .join → f ∈ u.lpt.queue
    ∨ ∃ g : JoinFields, f.payload = .join g ∧ g.index = u.ixs.index ∧ g.forming = (u.ixs.state == .forming)
  ssv : t.ssv = { u.ssv with
    shuttle := t.ssv.shuttle, haltedFrom := t.ssv.haltedFrom, drive := t.ssv.drive
    repositionTarget := t.ssv.repositionTarget, repositionUse := t.ssv.repositionUse
    homingTimer := t.ssv.homingTimer, homeCheckTimer := t.ssv.homeCheckTimer, homeCheck := t.ssv.homeCheck
    homingStage := t.ssv.homingStage }
  /-- R94: the homing timer and the home check timer may be stopped. -/
  timers : (t.ssv.homingTimer = u.ssv.homingTimer ∨ t.ssv.homingTimer = none)
    ∧ (t.ssv.homeCheckTimer = u.ssv.homeCheckTimer ∨ t.ssv.homeCheckTimer = none)
  stopPosition : t.pgn.stopPosition = u.pgn.stopPosition
  base : t.pgn.base = u.pgn.base
  mask : t.har.attnMask = u.har.attnMask
  levels : ∀ c : Cause, t.har.level c = u.har.level c
  latched : ∀ c : Cause, c.latched = true → c ∉ exc → t.har.isPending c = u.har.isPending c
  settled : EveryCause u → ∀ c ∈ Cause.selfClearing, 1 ≤ u.har.level c → t.har.isPending c = t.condition c
  outputs : OutputsFollow t
  /-- Where the self-clearing causes have settled, none of them changes. -/
  quiet : CausesSettled u → ∀ c : Cause, c ∉ exc → t.har.isPending c = u.har.isPending c
  /-- Where no cause changes, nothing does but the section level and the outputs. -/
  still : EveryCause u → (∀ c : Cause, t.har.isPending c = u.har.isPending c) →
    t = { u with har := { u.har with sectionLevel := t.har.sectionLevel }, pins := t.pins }
  /-- R94, R95: the drive, the shuttle and the profile change through causes of level 7 only. -/
  drive : EveryCause u → (∀ c : Cause, u.har.level c = 7 → t.har.isPending c = u.har.isPending c) →
    t.ssv = u.ssv ∧ t.pgn = u.pgn
  /-- R94: a cause of level 7 that has become pending has dropped the drive. -/
  dropped : EveryCause u → ∀ c : Cause, u.har.level c = 7 → u.har.isPending c = false → t.har.isPending c = true →
    t.ssv.drive = false ∧ t.ssv.shuttle = .halted
  /-- R94, R95: where none has become pending, the drive stays while one still is, and restarts with the end of the last. -/
  restart : EveryCause u → NoneHalts u t →
    (t.har.anyPendingAt 7 = true → t.ssv = u.ssv ∧ t.pgn = u.pgn)
      ∧ (u.har.anyPendingAt 7 = true → t.har.anyPendingAt 7 = false → Restarted u t)
  /-- R152. -/
  announced : EveryCause u → PairAnnounced u → PairAnnounced t
  /-- R153: a new pair has queued its HOLD. -/
  hold : EveryCause u → PairAnnounced u → ¬SamePair u t →
    ∃ f ∈ t.lpt.queue, f.payload = .hold t.har.announcedLevel t.har.announcedCause
  /-- R153: HOLD and JOIN are queued by a new pair only. -/
  frames : EveryCause u → PairAnnounced u → SamePair u t → SameFrames .hold u t ∧ SameFrames .join u t
  /-- R50. -/
  stop : EveryCause u → NoStopCause u t → SameFrames .stop u t
  /-- R43: READY is withdrawn at an announced level of 4 or higher only. -/
  ready : EveryCause u → PairAnnounced u → u.har.announcedLevel ≤ 3 → t.har.announcedLevel ≤ 3 →
    t.ixs = u.ixs ∧ SameFrames .ready u t
  /-- R43, R50, R153: with the pair and the causes that stop unchanged, the Line Port and the Index Sequencer are. -/
  line : EveryCause u → PairAnnounced u → SamePair u t → NoStopCause u t → t.lpt = u.lpt ∧ t.ixs = u.ixs

end Sys2Proof.Safety
end

