-- ==== Sys2Proof/Certificates/Slice0/Obligations.lean ====
section
/-! DEFINITION. The statements for the provers, one `Obligations.<Name>` each. OBLIGATIONS.json lists them. -/

namespace Sys2Proof.Claims

open Sys2Proof.Machine

/-! What statements are made of. -/

/-- The blocks of the state, for saying which a command leaves unchanged. -/
inductive Block where
  | lpt | ltu | peers | ixs | pgn | ssv | fxs | inputs | sampling | rst | sim | har | pins | cpt | items
  deriving DecidableEq, Repr

/-- A block is the same in two states. -/
def Same (s t : State) : Block → Prop
  | .lpt => t.lpt = s.lpt
  | .ltu => t.ltu = s.ltu
  | .peers => t.peers = s.peers
  | .ixs => t.ixs = s.ixs
  | .pgn => t.pgn = s.pgn
  | .ssv => t.ssv = s.ssv
  | .fxs => t.fxs = s.fxs
  | .inputs => t.inputs = s.inputs
  | .sampling => t.sampling = s.sampling
  | .rst => t.rst = s.rst
  | .sim => t.sim = s.sim
  | .har => t.har = s.har
  | .pins => t.pins = s.pins
  | .cpt => t.cpt = s.cpt
  | .items => t.items = s.items

/-- Every block outside the list is unchanged, and so are the model's own count of free values and the queue of commands. -/
def OnlyIn (l : List Block) (s t : State) : Prop :=
  (∀ b, b ∉ l → Same s t b) ∧ t.freeTaken = s.freeTaken ∧ t.pending = s.pending

/-- R174, R177: what the response buffer gives out: the octets of its response, or of the kind none. -/
def BufferGives : Option Response → List Byte
  | some r => r.octets
  | none => [0, 0, 0] ++ checkOctets [0, 0, 0]

/-- R174: what a transaction of `n` octets shifts out of a response buffer: its octets, and ones after the last. -/
def ShiftedOut (b : Option Response) (n : Nat) : List Byte := (BufferGives b ++ List.replicate n 255#8).take n

/-- R174: the state with this response in the response buffer, not yet read; the request's transaction, of its own `n` octets and those
clocked after them, has shifted out the buffer as it stood. The last two are kept in fields of the model's own (assumption 14). -/
def Responded (s : State) (n : Nat) (kind : Byte) (status : Status) (fields : List Byte) : State :=
  { s with cpt := { s.cpt with
      response := some ⟨kind, status, fields⟩, responseRead := false
      shifted := ShiftedOut s.cpt.response (n + s.cpt.trailing) } }

/-- R174: a refused request acts on nothing; its response carries no fields. -/
def Refused (s : State) (n : Nat) (kind : Byte) (status : Status) : State := Responded s n kind status []

/-- R162: the time, in µs, that a configured timeout of `ms` runs: its value rounded up to a multiple of 10 ms. -/
def Timeout (ms : Nat) : Nat := (ms + 9) / 10 * 10000

/-- Table 6-3, R106, R107, R115: the fixture once it has been given an open command. OPEN is complete, and OPENING goes on. From the other
states RELEASE is energised, which clears the settle counter and the marks, and opening step 1 starts with its timer; with the pressure
off already step 2 starts, WITHDRAW energised, and with both locators off too the fixture is OPEN. The clamp timer stops, which is the
model's choice (assumption 17). -/
def Opens (s : State) : Fxs :=
  let f : Fxs := { s.fxs with release := true, settle := 0, marks := 0, clampTimer := none }
  let timer := some (Timeout s.items.releaseStepTimeout)
  if s.fxs.state = .open ∨ s.fxs.state = .opening then s.fxs
  else if s.inputs.pressure = true then { f with state := .opening, openingStep := .one, stepTimer := timer }
  else if s.inputs.locator1 = true ∨ s.inputs.locator2 = true then
    { f with state := .opening, openingStep := .two, withdraw := true, stepTimer := timer }
  else { f with state := .open, openingStep := .none, withdraw := true, stepTimer := none }

/-- Table 6-3, R109, R110, R115: the fixture once it has been given a seat command. From OPEN and OPENING WITHDRAW is de-energised and
LOCATING starts with its timer; with both locators engaged already RELEASE is de-energised and CLAMPING starts with its own. LOCATING and
CLAMPING go on, their timer started if it is not running, and SECURED is complete. -/
def Seats (s : State) : Fxs :=
  let f : Fxs := { s.fxs with withdraw := false, openingStep := .none }
  match s.fxs.state with
  | .open | .opening =>
    if s.inputs.locator1 = true ∧ s.inputs.locator2 = true then
      { f with state := .clamping, release := false, stepTimer := none, clampTimer := some (Timeout s.items.clampTimeout) }
    else { f with state := .locating, stepTimer := some (Timeout s.items.locateTimeout) }
  | .locating => { s.fxs with stepTimer := some (s.fxs.stepTimer.getD (Timeout s.items.locateTimeout)) }
  | .clamping => { s.fxs with clampTimer := some (s.fxs.clampTimer.getD (Timeout s.items.clampTimeout)) }
  | .secured => s.fxs

/-- Every level, and the pending flags of the latched causes other than these, are unchanged. -/
def LatchedKept (except : List Cause) (s t : State) : Prop :=
  (∀ c : Cause, t.har.level c = s.har.level c) ∧
    ∀ c : Cause, c.latched = true → c ∉ except → t.har.isPending c = s.har.isPending c

/-- The Index Sequencer has changed in nothing but that a rise of the announced level may have taken it from READY to WORKING
(R43). -/
def IxsKept (s t : State) : Prop :=
  t.ixs = s.ixs ∨ (s.ixs.state = .ready ∧ t.ixs = { s.ixs with state := .working })

/-- The blocks through which causes act: the transmit queue, the sequencer (R43), the drive and its profile (R94, R95), the Hold
Arbiter and the outputs. -/
def causeBlocks : List Block := [.lpt, .ixs, .pgn, .ssv, .har, .pins]

/-- `t` is `u` in everything but the section level and the outputs, which are formed anew. -/
def Becomes (u t : State) : Prop :=
  t = { u with har := { u.har with sectionLevel := t.har.sectionLevel }, pins := t.pins }

/-- A change gives `u` and leads to `t`: what follows from it at once follows, and nothing does where the self-clearing causes have
settled in `u`. -/
def Leads (u t : State) : Prop := Safety.Follows [] u t ∧ (Safety.CausesSettled u → Becomes u t)

/-- Table 11-3: an input of one line: its line, its taken value, and the level at which it is on. -/
structure Line where
  state : Sampling → LineState
  taken : Inputs → Bool
  onLevel : LineLevel

/-- R178, Table 11-3: the inputs of one line each that are on at the high level. -/
def highLines : List Line :=
  [⟨Sampling.machClear, Inputs.machClear, .high⟩, ⟨Sampling.home, Inputs.home, .high⟩, ⟨Sampling.liftUp, Inputs.liftUp, .high⟩,
   ⟨Sampling.liftDown, Inputs.liftDown, .high⟩, ⟨Sampling.palletPresent, Inputs.palletPresent, .high⟩,
   ⟨Sampling.pressure, Inputs.pressure, .high⟩, ⟨Sampling.locator1, Inputs.locator1, .high⟩,
   ⟨Sampling.locator2, Inputs.locator2, .high⟩]

/-- R178, Table 11-3: EMERGENCY and DRIVE_FAULT are on when their lines are open. -/
def lines : List Line :=
  [⟨Sampling.emergency, Inputs.emergency, .open⟩, ⟨Sampling.driveFault, Inputs.driveFault, .open⟩] ++ highLines

/-- R178: the line stands at the value other than the taken one. -/
def Moved (s : State) (x : Line) : Prop := (x.state s.sampling).level = x.onLevel ↔ x.taken s.inputs = false

/-- R178: a sample is the third in a row that finds the line at the value other than the taken one. -/
def Third (s : State) (x : Line) : Prop := Moved s x ∧ 2 ≤ (x.state s.sampling).run

/-- R104, R178, Table 11-3: the inputs of one line but the locators, with the change to off and the change to on that is taken of each. -/
def changes : List (Line × Instr × Instr) :=
  [(⟨Sampling.machClear, Inputs.machClear, .high⟩, .machClearDrop, .machClearOn),
   (⟨Sampling.emergency, Inputs.emergency, .open⟩, .emergencyOff, .emergencyOn),
   (⟨Sampling.driveFault, Inputs.driveFault, .open⟩, .driveFaultOff, .driveFaultOn),
   (⟨Sampling.home, Inputs.home, .high⟩, .homeSensorChange false, .homeSensorChange true),
   (⟨Sampling.liftUp, Inputs.liftUp, .high⟩, .liftSensorOff true, .liftUpSensorOn),
   (⟨Sampling.liftDown, Inputs.liftDown, .high⟩, .liftSensorOff false, .liftDownSensorOn),
   (⟨Sampling.pressure, Inputs.pressure, .high⟩, .clampPressureOff, .clampPressureMade),
   (⟨Sampling.palletPresent, Inputs.palletPresent, .high⟩, .palletPresentChange false, .palletPresentChange true)]

/-- R88, R104, R178, Table 11-3: what one sample of every input does from `s` to `t`: the third sample in a row that finds a line at the
value other than the taken one brings the change that is taken; the first of the home sensor, and its return before the third, bring the
home capture; the third in a row of one new combination of the plate code lines brings it. The two locator sensors are taken at one instant,
as one event of their values (assumption 35). The levels of the lines are the outside world's, and stay. -/
def Sampled (s t : State) : Prop :=
  let i := s.inputs
  let home : Line := ⟨Sampling.home, Inputs.home, .high⟩
  let first : Line := ⟨Sampling.locator1, Inputs.locator1, .high⟩
  let second : Line := ⟨Sampling.locator2, Inputs.locator2, .high⟩
  let p := s.sampling.plate
  let thirdCode := p.code ≠ i.plate ∧ p.sampled = some p.code ∧ 2 ≤ p.run
  t.sampling.clock = 0
    ∧ (∀ x ∈ lines, (x.state t.sampling).level = (x.state s.sampling).level
        ∧ (Moved s x ∧ ¬Third s x → (x.state t.sampling).run = (x.state s.sampling).run + 1)
        ∧ (¬Moved s x ∨ Third s x → (x.state t.sampling).run = 0))
    ∧ (∀ x ∈ changes, (x.2.1 ∈ t.pending ↔ Third s x.1 ∧ x.1.taken i = true)
        ∧ (x.2.2 ∈ t.pending ↔ Third s x.1 ∧ x.1.taken i = false))
    ∧ (.homeCapture true ∈ t.pending ↔ Moved s home ∧ s.sampling.home.run = 0)
    ∧ (.homeCapture false ∈ t.pending ↔ ¬Moved s home ∧ s.sampling.home.run ≠ 0)
    ∧ (∀ a b : Bool,
        let values := (Third s first ↔ a ≠ i.locator1) ∧ (Third s second ↔ b ≠ i.locator2)
        let lost := (i.locator1 = true ∧ a = false) ∨ (i.locator2 = true ∧ b = false)
        (.locatorOff a b ∈ t.pending ↔ values ∧ lost)
        ∧ (.locatorsEngaged a b ∈ t.pending ↔ values ∧ ¬lost ∧ (Third s first ∨ Third s second)))
    ∧ (∀ c : BitVec 10, .plateCodeChange c ∈ t.pending ↔ p.code = c ∧ thirdCode)
    ∧ t.sampling.plate.code = p.code
    ∧ (p.code = i.plate ∨ thirdCode → t.sampling.plate.sampled = none ∧ t.sampling.plate.run = 0)
    ∧ (p.code ≠ i.plate → ¬thirdCode → t.sampling.plate.sampled = some p.code
        ∧ t.sampling.plate.run = if p.sampled = some p.code then p.run + 1 else 1)

/-- R104, R178: `g` is the sampling of `s` after a reset: every line stands at its level, and the samples begin anew (assumption 35). -/
def SamplesAnew (s : State) (g : Sampling) : Prop :=
  g.clock = 0 ∧ (∀ x ∈ lines, x.state g = ⟨(x.state s.sampling).level, 0⟩) ∧ g.plate = ⟨s.sampling.plate.code, none, 0⟩

/-- R179: an output that is asserted by driving it stands so. -/
def AssertedByDriving (asserted : Bool) (d : OutputDrive) : Prop := if asserted = true then d = .driven else d = .released

/-- R179, Table 11-3: `o` is how the discrete outputs stand in `s`: all are asserted by driving them but SECTION_STOP, which is asserted by
releasing it. -/
def Stand (s : State) (o : OutputLines) : Prop :=
  AssertedByDriving s.fxs.release o.release ∧ AssertedByDriving s.fxs.withdraw o.withdraw ∧ AssertedByDriving s.ssv.lift o.lift
    ∧ AssertedByDriving s.ssv.drive o.driveEnable ∧ AssertedByDriving s.pins.machPermit o.machPermit
    ∧ AssertedByDriving s.pins.attn o.attn
    ∧ (if s.pins.sectionStop = true then o.sectionStop = .released else o.sectionStop = .driven)

/-! What time and the state itself bring about. -/

/-- R71: the line time `x` is at or later than `y`, by the signed difference of line times. -/
def Reached (x y : LineTime) : Prop := 0 ≤ (x - y).toInt

/-- R71, R77: line time has reached the origin of a forward or resume profile that waits for it, replaced by a stop ramp or not. -/
def OriginReached (s : State) : Prop :=
  (s.pgn.kind = .forward ∨ s.pgn.kind = .resume) ∧ s.pgn.begun = false ∧ (s.pgn.phase = .waiting ∨ s.pgn.phase = .ramping)
    ∧ Reached s.ltu.lineTime s.pgn.origin

/-- R71, R73, R77: a period is in progress. -/
def PeriodRuns (s : State) : Prop := s.pgn.phase = .running ∨ (s.pgn.phase = .ramping ∧ s.pgn.begun = true)

/-- R71: the line time `x` has reached the end of the period in progress of a forward or resume profile. -/
def PeriodOver (s : State) (x : LineTime) : Prop :=
  (s.pgn.kind = .forward ∨ s.pgn.kind = .resume) ∧ s.pgn.begun = true
    ∧ Reached x (s.pgn.origin + BitVec.ofNat 32 ((s.pgn.counter + 1) * 1000))

/-- R71, R72: the step that line time has just taken has carried it to the end of the period that was in progress; with the next one in
progress no step stands noted any more (assumptions 3 and 39). -/
def StepEndsPeriod (s : State) : Prop :=
  PeriodRuns s ∧ ∃ x, s.pgn.stepFrom = some x ∧ PeriodOver s s.ltu.lineTime ∧ ¬PeriodOver s x

/-- R88: homing may start. -/
def HomingStarts (s : State) : Prop :=
  s.ixs.state = .forming ∧ s.ssv.shuttle = .unhomed ∧ s.ssv.liftState = .down ∧ s.har.anyPendingAt 7 = false
    ∧ s.har.isPending .returnFault = false

/-- R171: the station may leave FORMING. -/
def FormingEnds (s : State) : Prop :=
  s.ixs.state = .forming ∧ (∀ p ∈ s.peers, p.matched = .yes) ∧ s.ltu.step = .fine ∧ s.ssv.shuttle = .atHome
    ∧ (s.rst.status = .empty → s.fxs.state = .open)

/-- R42: READY may be offered. -/
def ReadyGoes (s : State) : Prop :=
  s.ixs.state = .working
    ∧ (s.rst.status = .empty ∨ (s.rst.status = .held ∧ s.fxs.state = .secured ∧ s.ixs.pendingResult ≠ none))
    ∧ s.inputs.machClear = true ∧ s.ssv.shuttle = .atHome ∧ s.ltu.step = .fine ∧ s.har.announcedLevel ≤ 3
    ∧ (s.isUnload = true → s.rst.status = .held → s.rst.exitQueue.length < 4)

/-- R42, R71, R72, R88, R171: the events that the state itself brings about at once, each with its condition. Where several hold, the model
takes the first (its choice, assumption 11). -/
def triggers : List (Instr × (State → Prop)) :=
  [(.profileOrigin, OriginReached), (.periodEnd, StepEndsPeriod), (.homingStart, HomingStarts), (.formingExit, FormingEnds),
   (.readyOffer, ReadyGoes)]

/-- The events that fall due by time, each with its condition at the end of a microsecond: a timer has run out (R15, R33, R49, R53, R58,
R60, R73, R88, R90, R108 to R110, R167), a beat boundary (R21, R22), an origin or the end of a period (R71, R73) is reached, the settle
counter stands at the threshold of the next mark (R111), the drive setpoint line is free for the word that waits, or the last word was
started 1,000 µs before (R93). That R93's 1,000 µs count from the start of that word, and that the end of a period that is over when it begins
waits for the next microsecond, are read from the rules (assumptions 34 and 39). -/
def dueEvents : List (Instr × (State → Prop)) :=
  [(.foreignFrameTimerExpiry, fun s => s.lpt.foreignTimer = some 0),
   (.beatInstant, fun s => ∃ b, s.ltu.nextBeat = some b ∧ Reached s.ltu.lineTime b),
   (.joinRepetition, fun s => s.ixs.joinTimer = some 0),
   (.liftBarrierTimerExpiry, fun s => s.ixs.liftBarrierTimer = some 0),
   (.loweringTimerExpiry, fun s => s.ixs.loweringTimer = some 0),
   (.upstreamTimerExpiry, fun s => s.ixs.upstreamTimer = some 0),
   (.homingTimerExpiry, fun s => s.ssv.homingTimer = some 0),
   (.homeCheckTimerExpiry, fun s => s.ssv.homeCheckTimer = some 0),
   (.releaseStepTimerExpiry, fun s => s.fxs.stepTimer = some 0 ∧ s.fxs.state = .opening),
   (.locateTimerExpiry, fun s => s.fxs.stepTimer = some 0 ∧ s.fxs.state = .locating),
   (.clampTimerExpiry, fun s => s.fxs.clampTimer = some 0),
   (.settleMarkSet, fun s => (s.fxs.state = .clamping ∨ s.fxs.state = .secured) ∧ s.inputs.pressure = true ∧ s.fxs.marks < 7
      ∧ s.fxs.settle = 8 * 2 ^ (s.fxs.marks + 1) * 1000),
   (.profileOrigin, OriginReached),
   (.localProfileStart, fun s => (s.pgn.kind = .ret ∨ s.pgn.kind = .reposition ∨ s.pgn.kind = .homing) ∧ s.pgn.phase = .waiting
      ∧ s.pgn.localTimer = some 0),
   (.periodEnd, fun s => PeriodRuns s ∧ (PeriodOver s s.ltu.lineTime
      ∨ ((s.pgn.kind = .ret ∨ s.pgn.kind = .reposition ∨ s.pgn.kind = .homing) ∧ s.pgn.localTimer = some 0))),
   (.setpointWordEnd, fun s => s.ssv.wordWaiting = true ∧ 40 ≤ s.ssv.wordAge),
   (.setpointWordRepeat, fun s => s.ssv.wordAge = 1000)]

/-- R88, R104, R178: an event that a sample of the inputs may bring. -/
def OfSample (c : Instr) : Prop :=
  (∃ x ∈ changes, c = x.2.1 ∨ c = x.2.2) ∨ (∃ b, c = .homeCapture b) ∨ (∃ a b, c = .locatorsEngaged a b ∨ c = .locatorOff a b)
    ∨ ∃ k, c = .plateCodeChange k

/-- R20, R32, R93, R97, R111, R162: what one microsecond does to line time and to every timer and counter: a running timer counts down,
the silence counts, the age of the word, the rest of the encoder and the settle counter count up to their limits, and all else stays. -/
def OneMicrosecond (s t : State) : Prop :=
  let run (x : Option Nat) : Option Nat := x.map (· - 1)
  t.ltu = { s.ltu with lineTime := s.ltu.lineTime + 1 }
    ∧ t.lpt = { s.lpt with foreignTimer := run s.lpt.foreignTimer }
    ∧ t.peers = s.peers.map (fun p => { p with silence := p.silence.map fun us => min (us + 1) 65535000 })
    ∧ t.ixs = { s.ixs with joinTimer := run s.ixs.joinTimer, liftBarrierTimer := run s.ixs.liftBarrierTimer
                           loweringTimer := run s.ixs.loweringTimer, upstreamTimer := run s.ixs.upstreamTimer
                           sinceCompletion := s.ixs.sinceCompletion + 1 }
    ∧ t.pgn = { s.pgn with localTimer := run s.pgn.localTimer, stepFrom := none }
    ∧ t.ssv = { s.ssv with homingTimer := run s.ssv.homingTimer, homeCheckTimer := run s.ssv.homeCheckTimer
                           wordAge := min (s.ssv.wordAge + 1) 1000, encoderQuiet := min (s.ssv.encoderQuiet + 1) 50000 }
    ∧ t.fxs = { s.fxs with
        stepTimer := run s.fxs.stepTimer, clampTimer := run s.fxs.clampTimer
        settle := if (s.fxs.state = .clamping ∨ s.fxs.state = .secured) ∧ s.inputs.pressure = true
          then min (s.fxs.settle + 1) 1024000 else s.fxs.settle }
    ∧ t.inputs = s.inputs ∧ t.rst = s.rst ∧ t.sim = s.sim ∧ t.har = s.har ∧ t.pins = s.pins ∧ t.cpt = s.cpt ∧ t.items = s.items
    ∧ t.freeTaken = s.freeTaken

/-! Profiles and periods. -/

/-- R67, R70: `g` is `p` with a profile of this kind, distance, velocity limit and acceleration prepared: the descriptor of Table 4-1 filled
by the profile procedure, the counter, velocity and accumulator at 0, the phase WAITING. -/
def Prepared (p g : Pgn) (kind : PgnKind) (dist vLimit accel : Nat) : Prop :=
  g.phase = .waiting ∧ g.kind = kind ∧ g.distance = dist ∧ g.vLimit = vLimit ∧ g.accel = accel ∧ g.plan = plan dist vLimit accel
    ∧ g.begun = false ∧ g.counter = 0 ∧ g.velocity = 0 ∧ g.acc = 0 ∧ g.rampFrom = none ∧ g.stopPosition = p.stopPosition
    ∧ g.stepFrom = none

/-- R73, R82 to R84: the same of a local profile: its start position is the current setpoint, and its local origin, 1,000 to 1,999 µs ahead,
is a line time that is a multiple of 1,000 µs. The base is kept, which is the model's choice (assumption 38). -/
def PreparedLocal (s : State) (g : Pgn) (kind : PgnKind) (dist vLimit : Nat) (start : Int) (up : Bool) : Prop :=
  Prepared s.pgn g kind dist vLimit s.items.accel ∧ g.start = start ∧ g.setpoint = start ∧ g.up = up ∧ g.base = s.pgn.base
    ∧ ∃ w : Nat, 1000 ≤ w ∧ w ≤ 1999 ∧ (s.ltu.lineTime.toNat + w) % 1000 = 0 ∧ g.localTimer = some w
      ∧ g.origin = s.ltu.lineTime + BitVec.ofNat 32 w

end Sys2Proof.Claims

open Sys2Proof Sys2Proof.Machine Sys2Proof.Safety Sys2Proof.Claims

/-! The machine. -/

/-- Each step takes the command at the front of the queue and runs it on the state with the rest of the queue. -/
def Obligations.StepRunsFrontCommand : Prop :=
  ∀ (c : Instr) (rest : List Instr) (s : State),
    s.pending = c :: rest → step s = exec c { s with pending := rest }

/-- The model's choice of when (assumptions 3, 11 and 35): with no command waiting, an event that the state itself brings about (R42, R71,
R72, R88, R171) is queued at once; without one, one microsecond passes, and each timer that has run out, each beat boundary, origin and end
of a period that is reached, each silence that begins (R33), each settle threshold and each word that is due queues its event, and nothing
else is queued but, every 1,000 µs, what the samples of the input lines bring (R104, R178). That a setpoint word is repeated 1,000 µs after
the start of the last one (R93), and that the ends of periods that line time has already passed come one microsecond apart (R71), are read from
the rules (assumptions 34 and 39). -/
def Obligations.EmptyQueuePassesOneMicrosecond : Prop :=
  ∀ s : State, s.pending = [] →
    (∀ (a b : List (Instr × (State → Prop))) (x : Instr × (State → Prop)), triggers = a ++ x :: b → x.2 s →
        (∀ y ∈ a, ¬y.2 s) → step s = .next { s with pending := [x.1] })
    ∧ ((∀ x ∈ triggers, ¬x.2 s) → ∃ t, step s = .next t ∧ OneMicrosecond s t
      ∧ (∀ x ∈ dueEvents, x.1 ∈ t.pending ↔ x.2 t)
      ∧ (∀ i : Nat, .memberSilent i ∈ t.pending ↔ ∃ k p, i = k + 1 ∧ t.peers[k]? = some p ∧ p.silence = some 150000)
      ∧ (s.sampling.clock < 999 → t.sampling = { s.sampling with clock := s.sampling.clock + 1 })
      ∧ (999 ≤ s.sampling.clock → Sampled s t)
      ∧ ∀ c ∈ t.pending, (∃ x ∈ dueEvents, c = x.1) ∨ (∃ i, c = .memberSilent i) ∨ (999 ≤ s.sampling.clock ∧ OfSample c))

/-- R12, R34, R35, R66, R102, R117, R136, R146, R160, R161, R178, R180: the values that the manual gives for reset, whatever began
it. -/
def Obligations.ResetLeavesStatedValues : Prop :=
  State.reset = State.resetBy .powerOn ∧ ∀ cause : ResetCause,
    let s := State.resetBy cause
    (s.lpt.idleSeen = false ∧ s.lpt.queue = [] ∧ s.lpt.buffer = none ∧ s.lpt.counted = none ∧ s.lpt.count = 0
      ∧ s.lpt.foreignTimer = none)
    ∧ (s.ltu.lineTime = 0 ∧ s.ltu.nextBeat = none ∧ s.ltu.samples = [] ∧ s.ltu.coarseRun = 0 ∧ s.ltu.fineRun = 0
      ∧ s.ltu.step = .none)
    ∧ (s.ixs.state = .offline ∧ s.ixs.index = 0 ∧ s.ixs.origin = none ∧ s.ixs.stopStamp = none
      ∧ s.ixs.pendingResult = none ∧ s.ixs.ownHandover = false ∧ s.ixs.liftBarrierTimer = none
      ∧ s.ixs.loweringTimer = none ∧ s.ixs.upstreamTimer = none ∧ s.peers = [])
    ∧ (s.pgn.phase = .idle ∧ s.pgn.kind = .none ∧ s.pgn.counter = 0 ∧ s.pgn.velocity = 0 ∧ s.pgn.acc = 0
      ∧ s.pgn.base = 0 ∧ s.pgn.setpoint = 0 ∧ s.pgn.stopPosition = none ∧ s.pgn.stopSetpoint = none)
    ∧ (s.ssv.shuttle = .unhomed ∧ s.ssv.haltedFrom = none ∧ s.ssv.repositionTarget = none ∧ s.ssv.liftState = .falling
      ∧ s.ssv.lift = false ∧ s.ssv.encoder = 0 ∧ s.ssv.homeCapture = none ∧ s.ssv.followingError = 0
      ∧ s.ssv.drive = false ∧ s.ssv.homingTimer = none ∧ s.ssv.homeCheckTimer = none ∧ s.ssv.frameCopy = none
      ∧ s.ssv.word = 0)
    ∧ (s.fxs.state = .locating ∧ s.fxs.release = false ∧ s.fxs.withdraw = false ∧ s.fxs.settle = 0 ∧ s.fxs.marks = 0
      ∧ s.fxs.openingStep = .none ∧ s.fxs.stepTimer = none ∧ s.fxs.clampTimer = none)
    ∧ (s.inputs.machClear = false ∧ s.inputs.emergency = false ∧ s.inputs.driveFault = false ∧ s.inputs.home = false
      ∧ s.inputs.liftUp = false ∧ s.inputs.liftDown = false ∧ s.inputs.pressure = false ∧ s.inputs.locator1 = false
      ∧ s.inputs.locator2 = false ∧ s.inputs.palletPresent = false ∧ s.inputs.plate = 0)
    ∧ (s.rst.status = .unknown ∧ s.rst.record = none ∧ s.rst.outgoing = none ∧ s.rst.incoming = none
      ∧ s.rst.exitQueue = [])
    ∧ (s.sim.slots = [] ∧ s.sim.exitSlot = .unknown)
    ∧ ((∀ c : Cause, s.har.level c = c.defaultLevel ∧ s.har.isPending c = false) ∧ s.har.announcedLevel = 0
      ∧ s.har.announcedCause = 0 ∧ s.har.sectionLevel = 0 ∧ s.har.attnMask = 127#7)
    ∧ (s.pins.machPermit = false ∧ s.pins.attn = false ∧ s.pins.sectionStop = true)
    ∧ (s.cpt.response = none ∧ s.cpt.resetCause = cause ∧ s.items = Items.reset)

/-- R178 to R180: each discrete output stands as it is asserted, SECTION_STOP by releasing it and the others by driving them. Power-on and the
RESET input reset every block, and every discrete output is then released, with the section stopped and nothing else asserted; a pulse shorter than 10 µs resets the part in full or is ignored.
That the commands that wait, the count of free values and the levels of the input lines stay, and that the samples begin anew with the reset,
are the model's choices (assumptions 4, 31 and 35). -/
def Obligations.ResetTakesEveryBlock : Prop :=
  ∀ (cause : ResetCause) (s : State), Stand s s.outputLines ∧ ∃ g, SamplesAnew s g
    ∧ (let u := { State.resetBy cause with sampling := g, freeTaken := s.freeTaken, pending := s.pending }
      exec (.reset cause false) s = .next u
        ∧ u.outputLines = ⟨.released, .released, .released, .released, .released, .released, .released⟩)
    ∧ ∃ t, exec (.reset cause true) s = .next t
        ∧ (t = { State.resetBy cause with sampling := g, freeTaken := s.freeTaken + 1, pending := s.pending }
          ∨ t = { s with freeTaken := s.freeTaken + 1 })

/-! Configuration and formation. -/

/-- The state after SET_ITEM has stored a value. -/
def Sys2Proof.Claims.Stored (s : State) (n : Nat) (it : Items) : State :=
  Responded { s with items := it } n 1 .done []

/-- R147, R161, Table 10-1: in OFFLINE a value in its item's range is stored in the item's held form, with the response DONE, and nothing
else changes. A CAUSE_LEVEL of 0 to 7 is stored raised to its cause's floor; the other levels and every pending flag stay. That nothing else
changes also where SETTLE_STAGE is lowered to the marks of a CLAMPING fixture or below them is the model's choice (assumption 16). -/
def Obligations.SetItemStoresHeldForm : Prop :=
  ∀ s : State, s.ixs.state = .offline →
    (∀ v : Byte, 1 ≤ v.toNat → v.toNat ≤ 63 →
      exec (.setItem (.stationNumber v)) s = .next (Stored s 6 { s.items with stationNumber := some v.toNat }))
    ∧ (∀ v : Byte, 1 ≤ v.toNat → v.toNat ≤ 15 →
      exec (.setItem (.sectionId v)) s = .next (Stored s 6 { s.items with sectionId := some v.toNat }))
    ∧ (∀ l : List Byte, 2 ≤ l.length → l.length ≤ 16 → (∀ b ∈ l, 1 ≤ b.toNat ∧ b.toNat ≤ 63) →
      exec (.setItem (.members l)) s = .next (Stored s (6 + l.length) { s.items with members := some (l.map BitVec.toNat) }))
    ∧ (∀ v : BitVec 32, 400000 ≤ v.toNat → v.toNat ≤ 2500000 →
      exec (.setItem (.pitch v)) s = .next (Stored s 9 { s.items with pitch := some v.toNat }))
    ∧ (∀ v : BitVec 16, 100 ≤ v.toNat → v.toNat ≤ 2000 →
      exec (.setItem (.vmax v)) s = .next (Stored s 7 { s.items with vmax := v.toNat * 256 }))
    ∧ (∀ v : BitVec 16, 64 ≤ v.toNat → v.toNat ≤ 2048 →
      exec (.setItem (.accel v)) s = .next (Stored s 7 { s.items with accel := v.toNat }))
    ∧ (∀ v : BitVec 16, 64 ≤ v.toNat → v.toNat ≤ 4096 →
      exec (.setItem (.stopDecel v)) s = .next (Stored s 7 { s.items with stopDecel := v.toNat }))
    ∧ (∀ v : Byte, 5 ≤ v.toNat → v.toNat ≤ 100 →
      exec (.setItem (.homingSpeed v)) s = .next (Stored s 6 { s.items with homingSpeed := v.toNat * 256 }))
    ∧ (∀ v : BitVec 16, 500 ≤ v.toNat → v.toNat ≤ 20000 →
      exec (.setItem (.followLimit v)) s = .next (Stored s 7 { s.items with followLimit := v.toNat }))
    ∧ (∀ v : BitVec 16, 50 ≤ v.toNat → v.toNat ≤ 2000 →
      exec (.setItem (.inposWindow v)) s = .next (Stored s 7 { s.items with inposWindow := v.toNat }))
    ∧ (∀ v : Byte, 1 ≤ v.toNat → v.toNat ≤ 7 →
      exec (.setItem (.settleStage v)) s = .next (Stored s 6 { s.items with settleStage := v.toNat }))
    ∧ (∀ v : BitVec 16, 100 ≤ v.toNat → v.toNat ≤ 10000 →
      exec (.setItem (.releaseStepTimeout v)) s = .next (Stored s 7 { s.items with releaseStepTimeout := v.toNat })
      ∧ exec (.setItem (.locateTimeout v)) s = .next (Stored s 7 { s.items with locateTimeout := v.toNat })
      ∧ exec (.setItem (.clampTimeout v)) s = .next (Stored s 7 { s.items with clampTimeout := v.toNat })
      ∧ exec (.setItem (.liftBarrierTimeout v)) s = .next (Stored s 7 { s.items with liftBarrierTimeout := v.toNat })
      ∧ exec (.setItem (.lowerTimeout v)) s = .next (Stored s 7 { s.items with lowerTimeout := v.toNat }))
    ∧ (∀ (c : Cause) (v : Byte), s.har.causes.length = 24 → v.toNat ≤ 7 →
      ∃ t, exec (.setItem (.causeLevel (BitVec.ofNat 8 c.number) v)) s = .next (Responded t 7 1 .done [])
        ∧ t.har.level c = max c.floor v.toNat ∧ (∀ d : Cause, d ≠ c → t.har.level d = s.har.level d)
        ∧ (∀ d : Cause, t.har.isPending d = s.har.isPending d) ∧ t.har = { s.har with causes := t.har.causes }
        ∧ OnlyIn [.har] s t)

/-- Table 10-1: the values that lie in their items' ranges. -/
def Sys2Proof.Claims.InItemRange : ItemWrite → Prop
  | .stationNumber v => 1 ≤ v.toNat ∧ v.toNat ≤ 63
  | .sectionId v => 1 ≤ v.toNat ∧ v.toNat ≤ 15
  | .members l => 2 ≤ l.length ∧ l.length ≤ 16 ∧ ∀ b ∈ l, 1 ≤ b.toNat ∧ b.toNat ≤ 63
  | .pitch v => 400000 ≤ v.toNat ∧ v.toNat ≤ 2500000
  | .vmax v => 100 ≤ v.toNat ∧ v.toNat ≤ 2000
  | .accel v => 64 ≤ v.toNat ∧ v.toNat ≤ 2048
  | .stopDecel v => 64 ≤ v.toNat ∧ v.toNat ≤ 4096
  | .homingSpeed v => 5 ≤ v.toNat ∧ v.toNat ≤ 100
  | .followLimit v => 500 ≤ v.toNat ∧ v.toNat ≤ 20000
  | .inposWindow v => 50 ≤ v.toNat ∧ v.toNat ≤ 2000
  | .settleStage v => 1 ≤ v.toNat ∧ v.toNat ≤ 7
  | .releaseStepTimeout v => 100 ≤ v.toNat ∧ v.toNat ≤ 10000
  | .locateTimeout v => 100 ≤ v.toNat ∧ v.toNat ≤ 10000
  | .clampTimeout v => 100 ≤ v.toNat ∧ v.toNat ≤ 10000
  | .liftBarrierTimeout v => 100 ≤ v.toNat ∧ v.toNat ≤ 10000
  | .lowerTimeout v => 100 ≤ v.toNat ∧ v.toNat ≤ 10000
  | .causeLevel c l => c.toNat ≤ 23 ∧ l.toNat ≤ 7
  | .unknown _ _ => False

/-- R161, R163: the refusals of SET_ITEM and JOIN in the order of their tests. Outside OFFLINE both are refused with REFUSED_STATE; in
OFFLINE a value outside its item's range, or a name that is none of Table 10-1, with REFUSED_VALUE; JOIN with an item missing with
REFUSED_INCOMPLETE, and with a membership list that lacks the station or names one twice with REFUSED_VALUE. -/
def Obligations.ConfigurationRefusedInOrder : Prop :=
  ∀ s : State,
    (s.ixs.state ≠ .offline → exec .join s = .next (Refused s 4 2 .refusedState)
      ∧ ∀ w : ItemWrite, exec (.setItem w) s = .next (Refused s (4 + (itemFields w).length) 1 .refusedState))
    ∧ (s.ixs.state = .offline →
      (∀ w : ItemWrite, ¬InItemRange w → exec (.setItem w) s = .next (Refused s (4 + (itemFields w).length) 1 .refusedValue))
      ∧ ((s.items.stationNumber = none ∨ s.items.sectionId = none ∨ s.items.members = none ∨ s.items.pitch = none) →
          exec .join s = .next (Refused s 4 2 .refusedIncomplete))
      ∧ ∀ (n sec p : Nat) (l : List Nat), s.items.stationNumber = some n → s.items.sectionId = some sec →
          s.items.pitch = some p → s.items.members = some l → (n ∉ l ∨ ¬l.Nodup) →
          exec .join s = .next (Refused s 4 2 .refusedValue))

/-- R163 to R165, R114, R117, R136, R146, R160: JOIN, given in OFFLINE with the items complete, is taken: the items are clamped, the peer
table, the image, the beats, the JOIN repetition and the fixture status are set up, NOT_IN_STEP is pending, JOIN and HOLD are queued. With
the pallet absent the fixture is given the open command of Table 6-3, which stops the clamp timer by the model's choice (assumption 17);
otherwise a LOCATING or CLAMPING one gets its timer. -/
def Obligations.JoinFormsTheStation : Prop :=
  ∀ (s : State) (n sec p : Nat) (l : List Nat),
    s.ixs.state = .offline → LevelsLegal s → OfflineQuiet s → PairAnnounced s → s.ltu.step ≠ .fine →
    s.items.stationNumber = some n → s.items.sectionId = some sec → s.items.pitch = some p →
    s.items.members = some l → n ∈ l → l.Nodup →
    ∃ t, exec .join s = .next (Responded t 4 2 .done []) ∧ OnlyIn [.lpt, .ltu, .peers, .ixs, .pgn, .ssv, .fxs, .rst, .sim, .har,
        .pins, .items] s t
      ∧ t.items = { s.items with stopDecel := max s.items.stopDecel s.items.accel
                                 homingSpeed := max s.items.homingSpeed s.items.accel }
      ∧ t.ixs = { s.ixs with state := .forming, index := 0, joinTimer := some 500000 }
      ∧ t.peers = List.replicate l.length Peer.initial
      ∧ t.sim = { slots := List.replicate l.length .unknown, exitSlot := .unknown }
      ∧ t.ltu = { s.ltu with nextBeat := some (firstLater s.ltu.lineTime), samples := [] }
      ∧ t.rst = { s.rst with status := if s.inputs.palletPresent then .unknown else .empty, record := none }
      ∧ t.fxs = (if s.inputs.palletPresent = false then Opens s
          else if s.fxs.state = .locating then { s.fxs with stepTimer := some (Timeout s.items.locateTimeout) }
          else if s.fxs.state = .clamping then { s.fxs with clampTimer := some (Timeout s.items.clampTimeout) }
          else s.fxs)
      ∧ t.har.isPending .notInStep = true ∧ 4 ≤ t.har.announcedLevel
      ∧ (s.inputs.emergency = true → t.har.isPending .emergency = true)
      ∧ (s.inputs.driveFault = true → t.har.isPending .driveFault = true)
      ∧ (∃ f ∈ t.lpt.queue, f.payload.kind = .join) ∧ (∃ f ∈ t.lpt.queue, f.payload.kind = .hold)
      ∧ t.pins.sectionStop = true ∧ t.pins.machPermit = false

/-! Readings of the Cell Port. -/

/-- R159, R175, Table 11-7: GET_STATUS returns 33 octets read from the state it finds; GET_CAUSES returns 76: for each cause its kind, its
level and whether it is pending, then the announced pair, the section level and the ATTN mask. They change nothing but the response. -/
def Obligations.StatusAndCausesRead : Prop :=
  ∀ s : State, (∃ f : List Byte, exec .getCauses s = .next (Responded s 4 4 .done f) ∧ f.length = 76
    ∧ (∀ c : Cause, (f.drop (3 * c.number)).take 3
        = [if c.latched then 1 else 0, BitVec.ofNat 8 (s.har.level c), if s.har.isPending c then 1 else 0])
    ∧ f.drop 72 = [BitVec.ofNat 8 s.har.announcedLevel, BitVec.ofNat 8 s.har.announcedCause,
        BitVec.ofNat 8 s.har.sectionLevel, s.har.attnMask.setWidth 8])
  ∧ ∃ f : List Byte, exec .getStatus s = .next (Responded s 4 3 .done f) ∧ f.length = 33
    ∧ f.take 1 = octets 1 s.ixs.state.code ∧ (f.drop 1).take 2 = octets 2 s.ixs.index.toNat
    ∧ (f.drop 3).take 3 = octets 1 s.ltu.step.code ++ octets 1 s.ssv.shuttle.code ++ octets 1 s.ssv.liftState.code
    ∧ octetsInt ((f.drop 6).take 4) = s.ssv.encoder.toInt
    ∧ (-2147483648 ≤ s.pgn.setpoint → s.pgn.setpoint ≤ 2147483647 → octetsInt ((f.drop 10).take 4) = s.pgn.setpoint)
    ∧ (f.drop 14).take 3 = octets 1 s.fxs.state.code ++ octets 1 s.rst.status.code ++ octets 1 s.fxs.marks
    ∧ (f.drop 17).take 4 = [s.inputs.pressure, s.inputs.locator1, s.inputs.locator2, s.inputs.palletPresent].map flagOctet
    ∧ octetsNat ((f.drop 21).take 2) = s.inputs.plate.toNat
    ∧ (f.drop 23).take 6 = [s.inputs.machClear, s.inputs.emergency, s.inputs.driveFault, s.inputs.home, s.inputs.liftUp,
        s.inputs.liftDown].map flagOctet
    ∧ f.drop 29 = octets 1 s.har.announcedLevel ++ octets 1 s.har.announcedCause ++ octets 1 s.har.sectionLevel
        ++ [if s.cpt.resetCause = .powerOn then 0 else 1]

/-- R177: a value that may be none: the octet 0, or 1 and then its octets. -/
def Sys2Proof.Claims.Presence {α : Type} (o : Option α) (f : α → List Byte) : List Byte :=
  match o with
  | none => [0]
  | some a => 1 :: f a

/-- Table 11-7, Table 11-8: the content of a slot: its kind, and for a pallet entry its id, variant and verdict. -/
def Sys2Proof.Claims.SlotOctets : Slot → List Byte
  | .unknown => [0]
  | .empty => [1]
  | .pallet id variant verdict => 2 :: (octets 2 id ++ [BitVec.ofNat 8 variant, BitVec.ofNat 8 verdict.code])

/-- R32, R176, Table 11-7: what GET_PEER returns of the member at a position, column by column. -/
def Sys2Proof.Claims.PeerOctets (position : Nat) (p : Peer) : List Byte :=
  let flag (b : Bool) : Byte := if b then 1 else 0
  [BitVec.ofNat 8 position] ++ Presence p.lastHeard (fun t => octets 4 t.toNat)
    ++ Presence p.silence (fun us => octets 2 (us / 1000))
    ++ [flag (match p.silence with | some us => decide (150000 ≤ us) | none => false)]
    ++ Presence p.lastOffset (signedOctets 4) ++ Presence p.reportedStep (fun x => [BitVec.ofNat 8 x.code])
    ++ [flag p.ready, flag p.lifted, flag p.resume] ++ Presence p.lastLowered (fun n => octets 2 n.toNat)
    ++ Presence p.join (fun j => octets 4 j.pitch ++ octets 4 j.vmax ++ octets 2 j.accel ++ octets 2 j.stopDecel
        ++ [BitVec.ofNat 8 j.members] ++ octets 2 j.index.toNat ++ [flag j.forming])
    ++ [BitVec.ofNat 8 p.matched.code, BitVec.ofNat 8 p.level, BitVec.ofNat 8 p.cause]
    ++ Presence p.position (fun q => octets 2 q.fields.index.toNat ++ [BitVec.ofNat 8 q.fields.kind.code]
        ++ octets 2 q.fields.period ++ signedOctets 4 q.fields.offset ++ signedOctets 2 q.fields.error
        ++ [flag q.fields.saturated] ++ octets 4 q.observed.toNat)

/-- R135, R144, R176, R177, Table 11-7: what GET_FIXTURE_RECORD, GET_INCOMING, GET_IMAGE and GET_PEER return; they change nothing but the
response. A slot's image entry starts with its station number; GET_PEER answers for the station's place in MEMBERS. -/
def Obligations.RecordsImageAndPeersRead : Prop :=
  ∀ s : State,
    (exec .getFixtureRecord s = .next (Responded s 4 11 .done
        (octets 1 s.rst.status.code ++ contentOctets s.rst.record
          ++ [match s.ixs.pendingResult with | some r => BitVec.ofNat 8 r.code | none => 255#8]
          ++ (match s.rst.outgoing with
              | some o => 1#8 :: (octets 2 o.index.toNat ++ contentOctets o.content ++ octets 1 o.state.code)
              | none => [0#8]))))
    ∧ (s.ixs.state ≠ .offline →
        (s.isLoad = false → exec .getIncoming s = .next (match s.rst.incoming with
          | some i => Responded s 4 12 .done (octets 2 i.index.toNat ++ contentOctets i.content)
          | none => Responded s 4 12 .nothing []))
        ∧ (∃ f : List Byte, exec .getImage s = .next (Responded s 4 14 .done f)
            ∧ f.take 3 = octets 2 s.ixs.index.toNat ++ octets 1 s.memberCount
            ∧ f.drop 3 = (s.memberList.zip s.sim.slots).flatMap (fun p => BitVec.ofNat 8 p.1 :: SlotOctets p.2)
                ++ SlotOctets s.sim.exitSlot)
        ∧ ∀ (station : Byte) (i : Nat) (p : Peer), 1 ≤ station.toNat → station.toNat ≤ 63 →
            s.memberList.idxOf station.toNat = i → s.peers[i]? = some p →
            exec (.getPeer station) s = .next (Responded s 5 15 .done (PeerOctets (i + 1) p)))

/-- Table 9-1: the condition of each cause: that which keeps a self-clearing cause pending, and that against which CLEAR_CAUSE of a latched
one is decided. -/
def Sys2Proof.Claims.Condition (s : State) : Cause → Prop
  | .foreignFrame => s.ixs.state ≠ .offline ∧ s.lpt.foreignTimer ≠ none
  | .exitQueueFull => s.ixs.state ≠ .offline ∧ s.isUnload = true ∧ s.rst.status = .held ∧ 4 ≤ s.rst.exitQueue.length
  | .fixtureUnknown => s.ixs.state ≠ .offline ∧ s.rst.status = .unknown
  | .notInStep => s.ixs.state ≠ .offline ∧ s.ltu.step ≠ .fine
  | .returnFault => s.ssv.homeCheck = true ∧ s.inputs.home = false
  | .locateFault => s.fxs.withdraw = false ∧ (s.inputs.locator1 = false ∨ s.inputs.locator2 = false)
  | .clampNotSettled | .clampPressureLost => s.fxs.state = .clamping
  | .recordMissing | .palletIdentity => s.rst.status = .unknown
  | .palletMissing | .imageMismatch | .lineTransmitFailure | .syncDeviation => False
  | .profileMismatch => s.ixs.state ≠ .offline ∧ ∃ p ∈ s.peers, p.matched = .no
  | .peerSilent => s.ixs.state ≠ .offline ∧ ∃ p ∈ s.peers, ∃ us, p.silence = some us ∧ 150000 ≤ us
  | .releaseFault => s.fxs.state = .opening
  | .liftBarrierTimeout => s.ixs.state = .releasing ∨ s.ixs.state = .liftWait
  | .lowerFault => s.ixs.lowerExpired ≠ none
  | .machIntrusion => s.inputs.machClear = false
  | .stepLostInMotion => s.ltu.step = .none
  | .followingError => s.ssv.encoderQuiet < 50000
  | .driveFault => s.inputs.driveFault = true
  | .emergency => s.inputs.emergency = true

/-- R121, R131, R133, R135, R144, R151, R158, R176, R63: the refusals of these requests; a refused request changes nothing but the
response. -/
def Obligations.RequestsRefused : Prop :=
  ∀ s : State,
    (s.ixs.state = .offline ∨ s.isLoad = true → exec .getIncoming s = .next (Refused s 4 12 .refusedState))
    ∧ (s.ixs.state = .offline → exec .getImage s = .next (Refused s 4 14 .refusedState))
    ∧ (∀ b : Byte, b.toNat = 0 ∨ 63 < b.toNat → exec (.getPeer b) s = .next (Refused s 5 15 .refusedValue))
    ∧ (∀ b : Byte, 1 ≤ b.toNat → b.toNat ≤ 63 → s.ixs.state = .offline →
        exec (.getPeer b) s = .next (Refused s 5 15 .refusedState))
    ∧ (∀ b : Byte, s.ixs.state ≠ .offline → s.peers.length = s.memberCount → b.toNat ∉ s.memberList →
        exec (.getPeer b) s = .next (Refused s 5 15 .refusedValue))
    ∧ (∀ b : Byte, 23 < b.toNat → exec (.clearCause b) s = .next (Refused s 5 5 .refusedValue))
    ∧ (∀ c : Cause, s.ixs.state = .offline →
        exec (.clearCause (BitVec.ofNat 8 c.number)) s = .next (Refused s 5 5 .refusedState))
    ∧ (∀ c : Cause, s.ixs.state ≠ .offline → Condition s c →
        exec (.clearCause (BitVec.ofNat 8 c.number)) s = .next (Refused s 5 5 .refusedActive))
    ∧ (∀ b : Byte, 127 < b.toNat → exec (.setAttnMask b) s = .next (Refused s 5 6 .refusedValue))
    ∧ (∀ b : Byte, 3 < b.toNat → exec (.reportResult b) s = .next (Refused s 5 7 .refusedValue))
    ∧ (∀ r : MachResult, s.ixs.state ≠ .working ∨ s.rst.status ≠ .held →
        exec (.reportResult (BitVec.ofNat 8 r.code)) s = .next (Refused s 5 7 .refusedState))
    ∧ ((s.ixs.state ≠ .forming ∧ s.ixs.state ≠ .working ∧ s.ixs.state ≠ .seating) ∨ s.rst.status ≠ .unknown
          ∨ s.inputs.palletPresent = true → exec .declareEmpty s = .next (Refused s 4 10 .refusedState))
    ∧ (s.ixs.state = .offline ∨ s.isUnload = false → exec .takeExitRecord s = .next (Refused s 4 13 .refusedState))
    ∧ (s.ixs.state ≠ .stopped → exec .resume s = .next (Refused s 4 16 .refusedState))
    ∧ (s.ixs.state = .stopped → s.har.stopPending = true → exec .resume s = .next (Refused s 4 16 .refusedActive))

/-- R173, R174, R177: a malformed or cut request is answered REFUSED_VALUE under its kind octet. A transaction without a request
shifts out the response octet by octet and then ones, as every transaction does, kept in a field of the model's own (assumption 14); it
changes nothing else but the mark that a response shifted out in full has been read. -/
def Obligations.TransactionsWithoutRequest : Prop :=
  ∀ s : State, (∀ kind : Byte, exec (.malformedRequest kind) s = .next (Refused s 1 kind .refusedValue))
    ∧ ∀ n : Nat, ∃ t, exec (.noneTransaction n) s = .next t ∧ OnlyIn [.cpt] s t ∧ t.cpt.response = s.cpt.response
        ∧ t.cpt.resetCause = s.cpt.resetCause ∧ t.cpt.shifted.length = n
        ∧ (∀ i < n, t.cpt.shifted[i]? = some ((BufferGives s.cpt.response).getD i 255#8))
        ∧ (t.cpt.responseRead = true ↔ s.cpt.responseRead = true
            ∨ ∃ r, s.cpt.response = some r ∧ 5 + r.fields.length ≤ n)

/-! Causes, results and records over the Cell Port. -/

/-- R151, R148, Table 9-1: CLEAR_CAUSE of a cause whose condition is absent is taken: a pending latched cause stops being pending, and a
cause that is not pending or clears itself is left as it is. The conditions are those of Table 9-1, cause by cause. -/
def Obligations.ClearCauseTaken : Prop :=
  ∀ (s : State) (c : Cause), (s.condition c = true ↔ Condition s c) ∧
    (s.ixs.state ≠ .offline → s.har.causes.length = 24 → ¬Condition s c →
    ∃ t, exec (.clearCause (BitVec.ofNat 8 c.number)) s = .next (Responded t 5 5 .done [])
      ∧ (c.latched = true → Follows [c] s t ∧ t.har.isPending c = false)
      ∧ (c.latched = false ∨ s.har.isPending c = false → Follows [] s t))

/-- R95: the last pending cause of level 7, with the shuttle HALTED. -/
def Sys2Proof.Claims.LastOfSeven (s : State) (c : Cause) : Prop :=
  s.ixs.state ≠ .offline ∧ CausesSettled s ∧ s.har.causes.length = 24 ∧ s.har.isPending c = true ∧ s.har.level c = 7
    ∧ (∀ d : Cause, d ≠ c → s.har.isPending d = true → s.har.level d ≠ 7) ∧ s.ssv.shuttle = .halted

/-- Table 5-4: the restart of the HALTED shuttle of `u`, by its halted-from: the drive is asserted, and a reposition or a return starts from
the encoder count; or the shuttle is UNHOMED, or stays HALTED with the drive as it is. What becomes of the reposition target where the
shuttle goes to UNHOMED or stays HALTED is the model's choice (assumption 44). -/
def Sys2Proof.Claims.Restarts (u t : State) : Prop :=
  let x := u.ssv.encoder.toInt
  let runs (st : ShuttleState) (kind : PgnKind) (target : Int) : Prop :=
    t.ssv.drive = true ∧ t.ssv.shuttle = st ∧ t.ssv.haltedFrom = none ∧ t.pgn.kind = kind ∧ t.pgn.phase = .waiting
      ∧ t.pgn.start = x ∧ t.pgn.setpoint = x ∧ t.pgn.distance = (target - x).natAbs * 256 ∧ (t.pgn.up = true ↔ x < target)
  let toHome := runs .returning .reposition 0 ∧ t.ssv.repositionTarget = some 0 ∧ t.ssv.repositionUse = some .toHome
  let toPitch := runs .repositioning .reposition u.pitch ∧ t.ssv.repositionTarget = some (u.pitch : Int)
    ∧ t.ssv.repositionUse = some .toPitch
  (u.ssv.haltedFrom = some .atHome → toHome)
    ∧ (u.ssv.haltedFrom = some .returning → x ≤ 0 → toHome)
    ∧ (u.ssv.haltedFrom = some .returning → 0 < x → runs .returning .ret 0 ∧ t.ssv.repositionTarget = none)
    ∧ (u.ssv.haltedFrom = some .atEnd → toPitch)
    ∧ (u.ssv.haltedFrom = some .repositioning → u.ssv.repositionUse = some .toPitch → toPitch)
    ∧ (u.ssv.haltedFrom = some .repositioning → u.ssv.repositionUse ≠ some .toPitch → t.pgn = u.pgn
        ∧ t.ssv = { u.ssv with haltedFrom := some .haltedMid, repositionTarget := none, repositionUse := none })
    ∧ (u.ssv.haltedFrom = some .unhomed ∨ u.ssv.haltedFrom = some .homing → t.pgn = u.pgn
        ∧ t.ssv = { u.ssv with shuttle := .unhomed, haltedFrom := none })
    ∧ (u.ssv.haltedFrom = some .forward ∨ u.ssv.haltedFrom = some .stopping ∨ u.ssv.haltedFrom = some .haltedMid →
        t.pgn = u.pgn ∧ t.ssv = u.ssv)

/-- R15, R24, R28, R29, R32, R131, R133, R169, Table 9-1: the command `i` ends the condition of the self-clearing cause `c`: the
foreign-frame timer expires, a record leaves the full exit queue, an unknown fixture is declared EMPTY, a beat instant finds the station in
step, the only silent member is heard with a HOLD, the only member that does not match has a JOIN that does. -/
def Sys2Proof.Claims.EndsCondition (i : Instr) (c : Cause) (s : State) : Prop :=
  (c = .foreignFrame ∧ i = .foreignFrameTimerExpiry)
    ∨ (c = .exitQueueFull ∧ i = .takeExitRecord ∧ s.rst.exitQueue.length = 4)
    ∨ (c = .fixtureUnknown ∧ i = .declareEmpty ∧ s.inputs.palletPresent = false
      ∧ (s.ixs.state = .forming ∨ s.ixs.state = .working ∨ s.ixs.state = .seating))
    ∨ (c = .notInStep ∧ i = .beatInstant ∧ s.ltu.nextBeat ≠ none ∧ s.ltu.samples ≠ [] ∧ 15 ≤ s.ltu.coarseRun ∧ 31 ≤ s.ltu.fineRun
      ∧ ∀ x ∈ s.ltu.samples, -25 ≤ x.offset ∧ x.offset ≤ 25)
    ∨ (c = .peerSilent ∧ ∃ (h : Header) (lv k m : Nat) (clock : FrameClock), i = .holdObserved h lv k
      ∧ Arrives s h (.hold lv k) m false clock
      ∧ ∀ (j : Nat) (p : Peer), j ≠ m → s.peers[j]? = some p → ∀ us, p.silence = some us → us < 150000)
    ∨ (c = .profileMismatch ∧ ∃ (h : Header) (f : JoinFields) (m : Nat) (clock : FrameClock), i = .joinObserved h f
      ∧ Arrives s h (.join f) m false clock ∧ f.forming = false
      ∧ (f.pitch = s.pitch ∧ f.vmax = s.items.vmax ∧ f.accel = s.items.accel ∧ f.stopDecel = s.items.stopDecel
        ∧ f.members = s.memberCount)
      ∧ ∀ (j : Nat) (p : Peer), j ≠ m → s.peers[j]? = some p → p.matched ≠ .no)

/-- R58, R95, R148, R151, Table 5-4: with the end of the last pending cause of level 7 a HALTED shuttle restarts by its halted-from: with a
CLEAR_CAUSE that is taken, and with the end of the condition of a self-clearing cause that has been given level 7, in LOWERING as elsewhere.
A beat instant also leaves the model's own note of line time before its step (assumption 3). What becomes of the reposition target where the
shuttle goes to UNHOMED or stays HALTED is the model's choice (assumption 44). -/
def Obligations.LastLevelSevenCauseRestarts : Prop :=
  ∀ (s : State) (c : Cause), LastOfSeven s c →
    (c.latched = true → ¬Condition s c →
      ∃ t, exec (.clearCause (BitVec.ofNat 8 c.number)) s = .next (Responded t 5 5 .done []) ∧ Restarts s t)
    ∧ ∀ i : Instr, EndsCondition i c s → ∃ t, exec i s = .next t ∧ t.har.isPending c = false
        ∧ Restarts (if i = .beatInstant then { s with pgn := { s.pgn with
            stepFrom := some (s.pgn.stepFrom.getD s.ltu.lineTime) } } else s) t

/-- R158: SET_ATTN_MASK of 0 to 127 replaces the mask in any sequencer state; ATTN is then asserted while a pending cause has a level
that is in the mask, the bit of weight 2^(k-1) standing for level k. -/
def Obligations.AttnFollowsMask : Prop :=
  ∀ (s : State) (m : Byte), m.toNat ≤ 127 →
    ∃ t, exec (.setAttnMask m) s = .next (Responded t 5 6 .done []) ∧ OnlyIn [.har, .pins] s t
      ∧ t.har = { s.har with attnMask := m.setWidth 7, sectionLevel := t.har.sectionLevel } ∧ OutputsFollow t
      ∧ (t.pins.attn = true ↔ ∃ e ∈ s.har.causes, e.pending = true ∧ ∃ k : Nat, e.level = k + 1 ∧ k < 7 ∧ m.getLsbD k = true)

/-- R128: a record that the loading requests take: in its ranges, and with a verdict no better than any result's. -/
def Sys2Proof.Claims.Loadable (r : PalletRecord) : Prop :=
  recordInRange r = true ∧ ∀ e ∈ r.ops, (resultVerdict e.result).code ≤ r.verdict.code

/-- R129, R130, R60, Table 6-3: the state of a station that has just been given a record: the fixture HELD and given the seat command,
SEATING, or WORKING where the fixture is SECURED already. -/
def Sys2Proof.Claims.Given (s : State) (r : PalletRecord) : State :=
  { s with
    rst := { s.rst with status := .held, record := some r }
    fxs := Seats s
    ixs := { s.ixs with state := if s.fxs.state = .secured then .working else .seating
                        step := if s.fxs.state = .secured then .none else .seat, lowerExpired := none } }

/-- R105, R109, R110, R115, R128 to R130: LOAD_ENTRY and LOAD_FIXTURE in the order of their tests. Octets that are no record of R19, or a
record whose verdict is better than a result's, are refused before the station's state is tested; then the state, then the plate code. Under
their conditions they are taken, and the fixture is given the seat command of Table 6-3 from whatever state it stands in. -/
def Obligations.LoadDecided : Prop :=
  ∀ s : State,
    (∀ os : List Byte, (¬∃ r, Loadable r ∧ recordOctets r = os) →
        exec (.loadEntry os) s = .next (Refused s (4 + os.length) 8 .refusedValue)
          ∧ exec (.loadFixture os) s = .next (Refused s (4 + os.length) 9 .refusedValue))
    ∧ ∀ r : PalletRecord, Loadable r →
        let entry := s.isLoad = true ∧ s.ixs.state = .working ∧ s.rst.status = .empty ∧ s.inputs.palletPresent = true
          ∧ (∀ p, s.peers[s.ownIdx]? = some p → p.ready = false) ∧ s.lpt.holds (ofKind .ready) = false
        let fixture := s.ixs.state = .working ∧ s.rst.status = .unknown ∧ s.inputs.palletPresent = true
        (¬entry → exec (.loadEntry (recordOctets r)) s = .next (Refused s (4 + (recordOctets r).length) 8 .refusedState))
        ∧ (¬fixture → exec (.loadFixture (recordOctets r)) s = .next (Refused s (4 + (recordOctets r).length) 9 .refusedState))
        ∧ (entry → s.inputs.plate.toNat ≠ r.id →
            exec (.loadEntry (recordOctets r)) s = .next (Refused s (4 + (recordOctets r).length) 8 .refusedIdentity))
        ∧ (fixture → s.inputs.plate.toNat ≠ r.id →
            exec (.loadFixture (recordOctets r)) s = .next (Refused s (4 + (recordOctets r).length) 9 .refusedIdentity))
        ∧ (entry → s.inputs.plate.toNat = r.id →
            ∃ t, exec (.loadEntry (recordOctets r)) s = .next (Responded t (4 + (recordOctets r).length) 8 .done []) ∧ Follows [] (Given s r) t)
        ∧ (fixture → s.inputs.plate.toNat = r.id →
            ∃ t, exec (.loadFixture (recordOctets r)) s = .next (Responded t (4 + (recordOctets r).length) 9 .done []) ∧ Follows [] (Given s r) t)

/-- R131, R105 to R107, R114, R115, R120, R60: DECLARE_EMPTY is taken: the status becomes EMPTY and the fixture is given the open command
of Table 6-3, OPENING or OPEN at once; SEATING that waits for the fixture ends in WORKING when it is OPEN. That the clamp timer stops is the
model's choice (assumption 17). -/
def Obligations.DeclareEmptyTaken : Prop :=
  ∀ s : State, s.ixs.state = .forming ∨ s.ixs.state = .working ∨ s.ixs.state = .seating → s.rst.status = .unknown →
    s.inputs.palletPresent = false →
    ∃ t, exec .declareEmpty s = .next (Responded t 4 10 .done []) ∧
      let u := { s with rst := { s.rst with status := .empty, record := none }, fxs := Opens s }
      Follows [] (if s.ixs.state = .seating ∧ s.ixs.step = .seat ∧ (Opens s).state = .open
          then { u with ixs := { s.ixs with state := .working, step := .none, lowerExpired := none } } else u) t

/-- R121, R133: REPORT_RESULT in WORKING with the fixture HELD sets the pending result and nothing else. TAKE_EXIT_RECORD at the unload
station outside OFFLINE returns and removes the head of the exit queue; an empty queue is answered NOTHING. -/
def Obligations.ResultAndExitRecordTaken : Prop :=
  ∀ s : State,
    (∀ r : MachResult, s.ixs.state = .working → s.rst.status = .held →
      exec (.reportResult (BitVec.ofNat 8 r.code)) s
        = .next (Responded { s with ixs := { s.ixs with pendingResult := some r } } 5 7 .done []))
    ∧ (s.ixs.state ≠ .offline → s.isUnload = true →
      (∀ (r : PalletRecord) (rest : List PalletRecord), s.rst.exitQueue = r :: rest →
        ∃ t, exec .takeExitRecord s = .next (Responded t 4 13 .done (recordOctets r))
          ∧ Follows [] { s with rst := { s.rst with exitQueue := rest } } t)
      ∧ (s.rst.exitQueue = [] → exec .takeExitRecord s = .next (Responded s 4 13 .nothing [])))

/-- R63, R65, Table 5-4: RESUME in STOPPED with no cause of level 6 or 7 pending is taken: DRIVE_ENABLE is raised and the station enters
RESUME_WAIT. With the encoder within INPOS_WINDOW of the stop setpoint RESUME is queued at once; otherwise a reposition to the stop setpoint
runs first, which is read from the rules (assumption 29). The shuttle stands HALTED_MID or HALTED, or runs the reposition of an earlier
RESUME, with which RESUME is queued at once too where the encoder is in the window: the model's choice (assumption 42). That a HALTED
shuttle keeps its reposition target is the model's choice (assumption 44). -/
def Obligations.ResumeTaken : Prop :=
  ∀ (s : State) (pos : Nat), s.ixs.state = .stopped → s.har.stopPending = false → s.ssv.shuttle = .haltedMid ∨
      s.ssv.shuttle = .halted ∨ s.ssv.shuttle = .repositioning → s.pgn.stopPosition = some pos →
    let sp : Int := (pos / 256 : Nat)
    let v := { s.ssv with drive := true, shuttle := if s.ssv.shuttle = .halted then .haltedMid else s.ssv.shuttle
                          haltedFrom := if s.ssv.shuttle = .halted then none else s.ssv.haltedFrom }
    ∃ t, exec .resume s = .next (Responded t 4 16 .done [])
      ∧ ((s.ssv.encoder.toInt - sp).natAbs ≤ s.items.inposWindow →
          Leads { s with ssv := v, ixs := { s.ixs with state := .resumeWait, resumeStep := .none }
                         lpt := s.lpt.enqueue (.resume s.ixs.index (pos / 256)) } t
          ∧ (CausesSettled s → t.ssv = v ∧ t.pgn = s.pgn))
      ∧ (s.items.inposWindow < (s.ssv.encoder.toInt - sp).natAbs →
          let w := { v with shuttle := .repositioning, repositionTarget := some sp, repositionUse := some .toStop }
          let g := s.pgn.prepareMove .reposition s.ssv.encoder.toInt sp s.items.homingSpeed s.items.accel s.ltu.lineTime
          Leads { s with
            ssv := w, ixs := { s.ixs with state := .resumeWait, resumeStep := .repositioning }, pgn := g } t
          ∧ (CausesSettled s → t.ssv = w ∧ t.pgn = g))

/-! The Section Line. -/

/-- R9: a frame that is queued replaces the held frame of its kind; the frames of other kinds stay, and the queue keeps its order by kind
priority. -/
def Obligations.QueueReplacesKind : Prop :=
  ∀ (l : Lpt) (p : Payload), l.queue.Pairwise (fun a b => a.payload.kind.priority < b.payload.kind.priority) →
    let t := l.enqueue p
    t.queue.Pairwise (fun a b => a.payload.kind.priority < b.payload.kind.priority)
      ∧ (∀ f : QueuedFrame, f.payload.kind ≠ p.kind → (f ∈ t.queue ↔ f ∈ l.queue))
      ∧ (∀ f : QueuedFrame, f.payload.kind = p.kind → (f ∈ t.queue ↔ f = ⟨l.nextId, p⟩))
      ∧ t = { l with queue := t.queue, nextId := l.nextId + 1 }

/-- R1, R3, R10, R100: LINK_IDLE_SEEN lets the station take part. At a FRAME_START its line time is latched and the copy of the profile is
taken; when it starts a frame itself, the queued frame of highest priority moves into the transmit buffer. That the copy says also
whether a stop position is held is read from R101 (assumption 15). -/
def Obligations.FrameStarts : Prop :=
  ∀ s : State,
    exec .linkIdleSeen s = .next { s with lpt := { s.lpt with idleSeen := true } }
    ∧ (s.lpt.idleSeen = true → s.lpt.frame = none →
        let v := { s.ssv with frameCopy := some ⟨s.pgn.counter, s.pgn.phase, s.pgn.kind, s.pgn.stopPosition.isSome⟩ }
        exec (.frameStart false) s
            = .next { s with lpt := { s.lpt with frame := some ⟨s.ltu.lineTime, 0⟩ }, ssv := v }
        ∧ ∀ (f : QueuedFrame) (rest : List QueuedFrame), s.lpt.queue = f :: rest →
            exec (.frameStart true) s = .next { s with
              lpt := { s.lpt with queue := rest, buffer := some f, withdrawHeld := false
                                  frame := some ⟨s.ltu.lineTime, 0⟩ }
              ssv := v })

/-- R10, R11: the queue `q` to which a frame `f`, whose attempt was not observed, goes back: not under a held withdrawal, nor where the
queue holds a newer frame of its kind. -/
def Sys2Proof.Claims.WentBack (l : Lpt) (f : QueuedFrame) (q : List QueuedFrame) : Prop :=
  if l.withdrawHeld = true ∨ ∃ g ∈ l.queue, g.payload.kind = f.payload.kind then q = l.queue
  else ∀ g : QueuedFrame, g ∈ q ↔ g = f ∨ g ∈ l.queue

/-- R2, R4 to R6, R10, R11: a station that loses arbitration goes on as a receiver, and its frame goes back, its repeat counter as it was.
A marked frame ends: an own one marked fewer than 16 times in a row goes back and is the counted frame, its count one higher or, if it was
not counted, 1 (assumption 12). A frame with the lower identifier is an arbitration lost, whatever else it holds. One to which the station
has not lost is marked with a value out of its range, and where a sender reads it back other than it sends it. An ARBITRATION_LOST without
an own attempt does nothing, which is the model's choice (assumption 7). -/
def Obligations.UnobservedAttemptGoesBack : Prop :=
  ∀ s : State,
    (s.lpt.buffer = none → exec .arbitrationLost s = .next s)
    ∧ (s.lpt.buffer = none → s.lpt.frame ≠ none →
      exec .frameMarked s = .next { s with lpt := { s.lpt with frame := none } }
      ∧ ∀ (g : Frame) (i : Instr), s.lpt.idleSeen = true → frameInRange g = false →
          i = observedCommand g ∨ i = .foreignFrameObserved g → exec i s = exec .frameMarked s)
    ∧ ∀ f : QueuedFrame, s.lpt.buffer = some f →
        (∃ q, WentBack s.lpt f q
          ∧ exec .arbitrationLost s = .next { s with lpt := { s.lpt with buffer := none, withdrawHeld := false, queue := q } })
        ∧ (s.lpt.frame ≠ none → (s.lpt.counted = some f.id → s.lpt.count < 15) →
            ∃ q, WentBack s.lpt f q
              ∧ exec .frameMarked s = .next { s with lpt := { s.lpt with
                  buffer := none, withdrawHeld := false, frame := none, queue := q, counted := some f.id
                  count := if s.lpt.counted = some f.id then s.lpt.count + 1 else 1 } })
        ∧ ∀ (clock : FrameClock) (g : Frame) (i : Instr), s.lpt.idleSeen = true → s.lpt.frame = some clock →
            i = observedCommand g ∨ i = .foreignFrameObserved g →
            let sent : Frame := ⟨⟨s.sectionId, s.stationNo, clock.localStart⟩, f.payload⟩
            (frameIdentifier g < frameIdentifier sent →
                ∀ u, exec .arbitrationLost s = .next u → exec i s = exec i u)
            ∧ (frameIdentifier sent ≤ frameIdentifier g → frameInRange g = false ∨ g ≠ sent →
                exec i s = exec .frameMarked s)

/-- R59, R60: the state of a station in LOWERING, its lift DOWN, that has queued LOWERED of the index just made, commanded the return and
entered SEATING; no upstream timer runs yet. That every shuttle state but HALTED returns from PITCH is read from the rules (assumption
24). A HALTED shuttle keeps its reposition target, the model's choice (assumption 44). -/
def Sys2Proof.Claims.LoweredQueued (s : State) : State :=
  { s with
    lpt := s.lpt.enqueue (.lowered s.indexMade)
    ssv := if s.ssv.shuttle = .halted then { s.ssv with haltedFrom := some .returning }
      else { s.ssv with shuttle := .returning, repositionTarget := none, repositionUse := none }
    pgn := if s.ssv.shuttle = .halted then s.pgn
      else s.pgn.prepareMove .ret s.pitch 0 s.items.vmax s.items.accel s.ltu.lineTime
    ixs := { s.ixs with state := .seating, step := .upstream, lowerExpired := none } }

/-- R60: the member directly upstream has been heard to have lowered the index just made. -/
def Sys2Proof.Claims.UpstreamLowered (s : State) : Prop :=
  ∃ p, s.peers[s.ownIdx - 1]? = some p ∧ p.lastLowered = some s.indexMade

/-- R6, R51, R59, R124, R153: the 16th marked attempt in a row removes the frame, clears the repeat counter and raises
LINE_TRANSMIT_FAILURE; the frame does not come back, every frame queued since being a new one, and frames of other kinds stay. HOLD is
queued again with the current pair, LOWERED of the index just made again, LIFTED, RESUME and STOP in their states; READY is not, the cause
having withdrawn it (R43). A HANDOVER leaves its record LOST, which ends the wait for it in LOWERING. The cause is raised before the owner
of the frame acts, and a STOP queued again names the announced cause: the model's choices (assumptions 6 and 37), as is the return from
PITCH of any shuttle that is not HALTED (assumption 24). That a HALTED shuttle keeps its reposition target is the model's choice (assumption
44). -/
def Obligations.SixteenthMarkRemoves : Prop :=
  ∀ (s : State) (f : QueuedFrame), s.lpt.frame ≠ none → s.lpt.buffer = some f → s.lpt.counted = some f.id →
    s.lpt.count = 15 → s.ixs.state ≠ .offline → LevelsLegal s →
    ∃ t, exec .frameMarked s = .next t ∧ t.har.isPending .lineTransmitFailure = true
      ∧ t.lpt.buffer = none ∧ t.lpt.frame = none ∧ t.lpt.counted = none ∧ t.lpt.count = 0
      ∧ (∀ g ∈ t.lpt.queue, g ∈ s.lpt.queue ∨ s.lpt.nextId ≤ g.id)
      ∧ (¬(f.payload.kind = .handover ∧ s.ixs.state = .lowering ∧ s.ixs.step = .handover) →
          OnlyIn (.rst :: causeBlocks) s t ∧ LatchedKept [.lineTransmitFailure] s t
          ∧ (∀ g : QueuedFrame, ofCauses g.payload = false → g.payload.kind ≠ f.payload.kind →
              (g ∈ t.lpt.queue ↔ g ∈ s.lpt.queue))
          ∧ (f.payload.kind ≠ .handover → t.rst = s.rst ∧ IxsKept s t)
          ∧ ∀ (i : IndexNo) (c : Option PalletRecord) (o : Outgoing), f.payload = .handover i c →
              s.rst.outgoing = some o →
              t.rst = { s.rst with outgoing := some { o with state := if o.index = i then .lost else o.state } })
      ∧ (f.payload.kind = .hold → ∃ g ∈ t.lpt.queue, g.payload = .hold t.har.announcedLevel t.har.announcedCause)
      ∧ (f.payload = .lowered s.indexMade → ∃ g ∈ t.lpt.queue, g.payload = .lowered s.indexMade)
      ∧ (f.payload.kind = .lifted → s.ixs.state = .liftWait → ∃ g ∈ t.lpt.queue, g.payload = .lifted s.ixs.index)
      ∧ (f.payload.kind = .resume → s.ixs.state = .resumeWait → ∀ pos, s.pgn.stopPosition = some pos →
          ∃ g ∈ t.lpt.queue, g.payload = .resume s.ixs.index (pos / 256))
      ∧ (f.payload.kind = .ready → PairAnnounced s → ReadyWithdrawn s →
          t.ixs.state ≠ .ready ∧ ∀ g ∈ t.lpt.queue, g.payload.kind ≠ .ready)
      ∧ (∀ c lv : Nat, f.payload = .stop s.ixs.index c lv →
          s.ixs.state ∈ [.releasing, .liftWait, .moving, .resumeWait] → PairAnnounced s → CausesSettled s →
          ∃ g ∈ t.lpt.queue, g.payload = .stop s.ixs.index t.har.announcedCause t.har.announcedLevel)
      ∧ ∀ (c : Option PalletRecord) (o : Outgoing), f.payload = .handover s.indexMade c → s.rst.outgoing = some o →
          o.index = s.indexMade → s.ixs.state = .lowering → s.ixs.step = .handover → s.ssv.liftState = .down →
          let x := LoweredQueued s
          let limit := Timeout s.items.lowerTimeout
          (∃ g ∈ t.lpt.queue, g.payload = .lowered s.indexMade)
            ∧ (s.isLoad = true → t.ixs = { x.ixs with state := .working, step := .none, upstreamTimer := none })
            ∧ (s.isLoad = false → UpstreamLowered s → t.ixs.step = .seat ∨ t.ixs.state = .working)
            ∧ (s.isLoad = false → ¬UpstreamLowered s → s.ixs.sinceCompletion < limit →
                t.ixs = { x.ixs with upstreamTimer := some (limit - s.ixs.sinceCompletion) })
            ∧ (s.isLoad = false → ¬UpstreamLowered s → limit ≤ s.ixs.sinceCompletion →
                t.har.isPending .lowerFault = true)
            ∧ (s.isLoad = true ∨ ¬UpstreamLowered s → t.rst = { s.rst with outgoing := some { o with state := .lost } }
                ∧ (CausesSettled s → s.ixs.sinceCompletion < limit →
                    s.har.level .lineTransmitFailure ≠ 7 ∨ s.har.isPending .lineTransmitFailure = true →
                    t.ssv = x.ssv ∧ t.pgn = x.pgn))

/-- R12 to R15: in OFFLINE an observed frame, foreign or not, acts on nothing but the link. Elsewhere a foreign frame starts the
foreign-frame timer anew and leaves no mark on the peer table; FOREIGN_FRAME is pending while it runs and stops when it expires. -/
def Obligations.ForeignFrameTimed : Prop :=
  ∀ s : State,
    (∀ (f : Frame) (i : Instr), s.ixs.state = .offline → s.lpt.idleSeen = true → s.lpt.frame ≠ none → s.lpt.buffer = none →
      frameInRange f = true → i = observedCommand f ∨ i = .foreignFrameObserved f →
      exec i s = .next { s with lpt := { s.lpt with frame := none } })
    ∧ (s.ixs.state ≠ .offline → LevelsLegal s →
    (∀ (f : Frame) (clock : FrameClock), s.lpt.idleSeen = true → s.lpt.frame = some clock → s.lpt.buffer = none →
      frameInRange f = true →
      (f.header.sectionId ≠ s.sectionId ∨ f.header.sender ∉ s.memberList ∨ f.header.sender = s.stationNo) →
      ∃ t, exec (.foreignFrameObserved f) s = .next t
        ∧ Follows [] { s with lpt := { s.lpt with frame := none, foreignTimer := some 1000000 } } t
        ∧ (1 ≤ s.har.level .foreignFrame → t.har.isPending .foreignFrame = true))
    ∧ (s.lpt.foreignTimer ≠ none →
      ∃ t, exec .foreignFrameTimerExpiry s = .next t
        ∧ Follows [] { s with lpt := { s.lpt with foreignTimer := none } } t
        ∧ (1 ≤ s.har.level .foreignFrame → t.har.isPending .foreignFrame = false)))

/-! Frames of members. -/

/-- R24, R23: BEAT of another member gives one offset sample, its stamp minus the local start time corrected by the steps since; a third
sample of one member replaces the later of its two. The station's own BEAT gives none. -/
def Obligations.BeatGivesSample : Prop :=
  ∀ (s : State) (h : Header) (st : StepState) (m : Nat) (own : Bool) (clock : FrameClock),
    Arrives s h (.beat st) m own clock →
    let a := Arrived s m own
    let x : Int := (h.stamp - (clock.localStart + BitVec.ofInt 32 clock.stepped)).toInt
    let mine := s.ltu.samples.filter fun y => y.member == m
    ∃ t, exec (.beatObserved h st) s = .next t
      ∧ (own = true → Follows [] { a with
          peers := updateAt (fun p => { p with reportedStep := some st }) m a.peers } t)
      ∧ (own = false → Follows [] { a with
            ltu := { s.ltu with samples := t.ltu.samples }
            peers := updateAt (fun p => { p with lastOffset := some x, reportedStep := some st }) m a.peers } t
          ∧ (t.ltu.samples.filter fun y => y.member != m) = (s.ltu.samples.filter fun y => y.member != m)
          ∧ (t.ltu.samples.filter fun y => y.member == m) = mine.take 1 ++ (if mine.length < 2 then mine.drop 1 else []) ++ [⟨m, x⟩])

/-- R169, R154: the state after JOIN has written its sender's columns, match flag, level and cause. -/
def Sys2Proof.Claims.JoinWritten (s : State) (m : Nat) (own : Bool) (f : JoinFields) : State :=
  let a := Arrived s m own
  let same := f.pitch = s.pitch ∧ f.vmax = s.items.vmax ∧ f.accel = s.items.accel ∧ f.stopDecel = s.items.stopDecel
    ∧ f.members = s.memberCount
  { a with peers := updateAt (fun p =>
      { p with join := some ⟨f.pitch, f.vmax, f.accel, f.stopDecel, f.members, f.index, f.forming⟩
               matched := if same then .yes else .no, level := f.level, cause := f.cause }) m a.peers }

/-- R38, R168 to R170: JOIN at its observation. A station in FORMING adopts the index of one that is not forming; a forming one clears the
READY marks in the states of R38, has a READY queued again and a JOIN in answer, its forming flag clear. -/
def Obligations.JoinObserved : Prop :=
  ∀ (s : State) (h : Header) (f : JoinFields) (m : Nat) (own : Bool) (clock : FrameClock),
    Arrives s h (.join f) m own clock →
    let w := JoinWritten s m own f
    let clear := w.peers.map fun p => { p with ready := false }
    let l := if s.ixs.state = .ready then w.lpt.enqueue s.readyPayload else w.lpt
    ∃ t, exec (.joinObserved h f) s = .next t
      ∧ (f.forming = false → s.ixs.state ≠ .forming → Leads w t)
      ∧ (f.forming = false → s.ixs.state = .forming → Leads { w with
          ixs := { s.ixs with index := f.index }, peers := if f.index = s.ixs.index then w.peers else clear } t)
      ∧ (f.forming = true → ¬(s.ixs.state = .seating ∧ s.ixs.step = .upstream ∧ m + 1 = s.ownIdx) →
          Leads { w with
            peers := if s.ixs.state ∈ [.forming, .working, .ready, .abandoning, .lowering, .seating] then clear else w.peers
            lpt := if s.ixs.state = .forming then l else l.enqueue s.joinPayload } t
          ∧ (s.ixs.state ≠ .forming → ∃ q ∈ t.lpt.queue, q.payload = .join
              { pitch := s.pitch, vmax := s.items.vmax, accel := s.items.accel, stopDecel := s.items.stopDecel
                members := s.memberCount, index := s.ixs.index, forming := false, level := t.har.announcedLevel
                cause := t.har.announcedCause })
          ∧ (s.ixs.state = .ready → s.har.causes.length = 24 → PairAnnounced s → s.har.announcedLevel ≤ 3 →
              t.har.announcedLevel ≤ 3 → t.ixs.state = .ready ∧ ∃ q ∈ t.lpt.queue, q.payload = s.readyPayload))

/-- Table 8-2: READY of the member of index `m` contradicts its slot. -/
def Sys2Proof.Claims.Contradicts (m : Nat) (f : ReadyFields) : Slot → Prop
  | .unknown => False
  | .empty => f.status = .held ∧ m ≠ 0
  | .pallet id _ _ => f.status = .empty ∨ (f.status = .held ∧ f.pallet ≠ id)

/-- R142: what a slot holds once an id has been written into another. -/
def Sys2Proof.Claims.WithoutId (id : Nat) : Slot → Slot
  | .pallet i v w => if i = id then .unknown else .pallet i v w
  | x => x

/-- R37, R138 to R142: READY of the station's index, short of the barrier, sets the member's mark and writes its slot of the image, an id
written being given up elsewhere; a contradiction raises IMAGE_MISMATCH. READY of another index does nothing. -/
def Obligations.ReadyMarksAndWritesImage : Prop :=
  ∀ (s : State) (h : Header) (f : ReadyFields) (m : Nat) (own : Bool) (clock : FrameClock) (old : Slot),
    Arrives s h (.ready f) m own clock → s.sim.slots[m]? = some old →
    let a := Arrived s m own
    let g : Slot → Slot := if f.status = .held then WithoutId f.pallet else id
    let new : Slot := match f.status with
      | .held => .pallet f.pallet f.variant f.verdict
      | .empty => .empty
      | .unknown => .unknown
    ∃ t, exec (.readyObserved h f) s = .next t
      ∧ (f.index ≠ s.ixs.index → Follows [] a t)
      ∧ (f.index = s.ixs.index → ¬((s.ixs.state = .ready ∨ s.ixs.state = .working)
            ∧ ∀ (i : Nat) (p : Peer), s.peers[i]? = some p → i ≠ m → p.ready = true) →
          Follows [.imageMismatch] { a with
            peers := updateAt (fun p => { p with ready := true }) m a.peers
            sim := t.sim } t
          ∧ t.sim.slots[m]? = some new ∧ (∀ i : Nat, i ≠ m → t.sim.slots[i]? = s.sim.slots[i]?.map g)
          ∧ t.sim.exitSlot = g s.sim.exitSlot
          ∧ (LevelsLegal s → Contradicts m f old → t.har.isPending .imageMismatch = true)
          ∧ (¬Contradicts m f old → t.har.isPending .imageMismatch = s.har.isPending .imageMismatch))

/-- R46, R47, R49, R50, R44, R41, R140, R142: the READY that completes the barrier in READY or WORKING takes the station to RELEASING: the
last LOWERED indexes are cleared, the lift barrier timer starts, the fixture is given the open command of Table 6-3; at an announced level
of 6 or higher STOP is queued, and with MACH_CLEAR off MACH_INTRUSION is raised. The image takes the READY first (the model's choice,
assumption 27); where both STOPs are due, the one that names MACH_INTRUSION is queued last (assumption 36); the clamp timer of an opened
fixture stops (assumption 17). The lift of a fixture that is OPEN at once is raised, or with it UP already LIFTED is queued in LIFT_WAIT.
The announced level is that of before the frame, also where a self-clearing cause ends with it (the model's choice, assumption 47). Short of
a cause raised here, nothing else changes. -/
def Obligations.ReadyBarrierReleases : Prop :=
  ∀ (s : State) (h : Header) (f : ReadyFields) (m : Nat) (own : Bool) (clock : FrameClock),
    Arrives s h (.ready f) m own clock → f.index = s.ixs.index → s.ixs.state = .ready ∨ s.ixs.state = .working →
    LevelsLegal s → PairAnnounced s → (∀ (i : Nat) (p : Peer), s.peers[i]? = some p → i ≠ m → p.ready = true) →
    let fx := Opens s
    let g : Slot → Slot := if f.status = .held then WithoutId f.pallet else id
    let new : Slot := match f.status with
      | .held => .pallet f.pallet f.variant f.verdict
      | .empty => .empty
      | .unknown => .unknown
    let a := Arrived s m own
    let v := if fx.state = .open then { s.ssv with
        lift := true, liftState := if s.ssv.liftState = .up then .up else .rising } else s.ssv
    let stop := if 6 ≤ s.har.announcedLevel then
        a.lpt.enqueue (.stop s.ixs.index s.har.announcedCause s.har.announcedLevel) else a.lpt
    ∃ t, exec (.readyObserved h f) s = .next t ∧ OnlyIn (.peers :: .fxs :: .sim :: causeBlocks) s t
      ∧ LatchedKept [.imageMismatch, .machIntrusion] s t
      ∧ t.peers = a.peers.map (fun p => { p with ready := true, lastLowered := none })
      ∧ t.fxs = fx
      ∧ (s.inputs.machClear = true → (∀ old, s.sim.slots[m]? = some old → ¬Contradicts m f old) → Leads { a with
          peers := a.peers.map fun p => { p with ready := true, lastLowered := none }
          fxs := fx, sim := t.sim, ssv := v
          ixs := { s.ixs with
            liftBarrierTimer := some (Timeout s.items.liftBarrierTimeout)
            state := if fx.state = .open ∧ s.ssv.liftState = .up then .liftWait else .releasing }
          lpt := if fx.state = .open ∧ s.ssv.liftState = .up then stop.enqueue (.lifted s.ixs.index) else stop } t)
      ∧ t.lpt = { a.lpt with queue := t.lpt.queue, withdrawHeld := t.lpt.withdrawHeld, nextId := t.lpt.nextId }
      ∧ (∀ g : QueuedFrame, ofCauses g.payload = false → g.payload.kind ≠ .lifted → (g ∈ t.lpt.queue ↔ g ∈ s.lpt.queue))
      ∧ t.ssv = { v with
          shuttle := t.ssv.shuttle, haltedFrom := t.ssv.haltedFrom, drive := t.ssv.drive
          repositionTarget := t.ssv.repositionTarget, repositionUse := t.ssv.repositionUse
          homingTimer := t.ssv.homingTimer, homeCheckTimer := t.ssv.homeCheckTimer, homeCheck := t.ssv.homeCheck
          homingStage := t.ssv.homingStage }
      ∧ t.pgn.stopPosition = s.pgn.stopPosition ∧ t.pgn.base = s.pgn.base
      ∧ (s.har.level .imageMismatch ≠ 7 → s.har.level .machIntrusion ≠ 7 → CausesSettled { s with peers := t.peers } →
          t.ssv = v ∧ t.pgn = s.pgn)
      ∧ (∀ old, s.sim.slots[m]? = some old → t.sim.slots[m]? = some new
          ∧ (Contradicts m f old → t.har.isPending .imageMismatch = true)
          ∧ (¬Contradicts m f old → t.har.isPending .imageMismatch = s.har.isPending .imageMismatch))
      ∧ (∀ i : Nat, i ≠ m → t.sim.slots[i]? = s.sim.slots[i]?.map g) ∧ t.sim.exitSlot = g s.sim.exitSlot
      ∧ t.ixs = { s.ixs with
          liftBarrierTimer := some (Timeout s.items.liftBarrierTimeout)
          state := if fx.state = .open ∧ s.ssv.liftState = .up then .liftWait else .releasing }
      ∧ (6 ≤ s.har.announcedLevel → ∃ q ∈ t.lpt.queue, q.payload.kind = .stop)
      ∧ (s.inputs.machClear = false → t.har.isPending .machIntrusion = true
          ∧ (s.har.isPending .machIntrusion = false → CausesSettled { s with peers := t.peers } →
              ∃ q ∈ t.lpt.queue, ∃ lv : Nat, q.payload = .stop s.ixs.index 17 lv))
      ∧ (fx.state = .open → s.ssv.liftState = .up → ∃ q ∈ t.lpt.queue, q.payload = .lifted s.ixs.index)

/-- R48, R64: the origin that a completing frame gives: its stamp rounded up to a multiple of 1,000 µs, plus 4,000 µs, modulo 2^32. -/
def Sys2Proof.Claims.OriginAfter (stamp : LineTime) : LineTime :=
  BitVec.ofNat 32 ((stamp.toNat + 999) / 1000 * 1000 + 4000)

/-- R87, R95: the shuttle on the way of a common profile: FORWARD, or while HALTED, halted from it. A local profile still running ends with
the reposition or homing it was for; that a home check or homing sequence ends without an outcome, its timers stopped, is the model's
choice (assumption 18), and so is it that the reposition target of a HALTED shuttle becomes none (assumption 44). -/
def Sys2Proof.Claims.OnForward (v : Ssv) : Ssv :=
  let w := { v with repositionTarget := none, repositionUse := none, homingTimer := none, homeCheckTimer := none
                    homeCheck := false, homingStage := .none }
  if v.shuttle = .halted then { w with haltedFrom := some .forward } else { w with shuttle := .forward }

/-- R39, R48, R50, R70, R71, R86, R87, R95: LIFTED of the station's index in RELEASING or LIFT_WAIT sets the member's mark, and is ignored
elsewhere. The one that completes the barrier in LIFT_WAIT prepares the forward profile over PITCH at its origin, the shuttle FORWARD or
halted from it, and takes the station to MOVING; at an announced level of 7 STOP is queued, whatever STOP was queued before being withdrawn.
That a home check or homing still running ends there without an outcome is the model's choice (assumption 18). That the announced level is
that of before the frame, also where a self-clearing cause ends with it, is the model's choice (assumption 47). That the reposition target
of a HALTED shuttle becomes none is the model's choice (assumption 44). -/
def Obligations.LiftedMarksAndMoves : Prop :=
  ∀ (s : State) (h : Header) (i : IndexNo) (m : Nat) (own : Bool) (clock : FrameClock),
    Arrives s h (.lifted i) m own clock →
    let a := Arrived s m own
    let taken := i = s.ixs.index ∧ (s.ixs.state = .releasing ∨ s.ixs.state = .liftWait)
    let complete := ∀ (j : Nat) (p : Peer), s.peers[j]? = some p → j ≠ m → p.lifted = true
    let marked := updateAt (fun p => { p with lifted := true }) m a.peers
    let o := OriginAfter h.stamp
    let l := a.lpt.withdraw (isStopOf s.ixs.index)
    ∃ t, exec (.liftedObserved h i) s = .next t
      ∧ (¬taken → Leads a t)
      ∧ (taken → ¬(s.ixs.state = .liftWait ∧ complete) → Leads { a with peers := marked } t)
      ∧ (taken → s.ixs.state = .liftWait → complete → Leads { a with
            peers := marked
            lpt := if s.har.announcedLevel = 7 then l.enqueue (.stop s.ixs.index s.har.announcedCause 7) else l
            pgn := s.pgn.prepareForward s.pitch s.items.vmax s.items.accel o
            ssv := OnForward s.ssv
            ixs := { s.ixs with state := .moving, origin := some o, liftBarrierTimer := none, resumeStep := .none } } t
          ∧ Prepared s.pgn t.pgn .forward (s.pitch * 256) s.items.vmax s.items.accel
          ∧ t.pgn.origin = o ∧ t.pgn.base = 0 ∧ t.pgn.setpoint = 0)

/-- R40, R64, R70, R81, R86, R87, R95: RESUME of the station's index in STOPPED or RESUME_WAIT sets the member's mark, a stop setpoint other
than the station's raising SYNC_DEVIATION; elsewhere it is ignored. The one that completes the barrier in RESUME_WAIT prepares the resume
profile from the stop position to PITCH, the setpoint held at the stop setpoint, the shuttle FORWARD or halted from it, and takes the
station to MOVING; at an announced level of 7 STOP is queued. Where its own SYNC_DEVIATION comes up at level 7, the shuttle is HALTED,
halted from FORWARD, and the profile runs. That a home check or homing still running ends there without an outcome is the model's choice
(assumption 18). That the announced level is that of before the frame, also where a self-clearing cause ends with it, is the model's choice
(assumption 47). That the reposition target of a HALTED shuttle becomes none is the model's choice (assumption 44). -/
def Obligations.ResumeMarksAndMoves : Prop :=
  ∀ (s : State) (h : Header) (i : IndexNo) (sp m : Nat) (own : Bool) (clock : FrameClock),
    Arrives s h (.resume i sp) m own clock → LevelsLegal s →
    let a := Arrived s m own
    let taken := i = s.ixs.index ∧ (s.ixs.state = .stopped ∨ s.ixs.state = .resumeWait)
    let complete := ∀ (j : Nat) (p : Peer), s.peers[j]? = some p → j ≠ m → p.resume = true
    let marked := { a with peers := updateAt (fun p => { p with resume := true }) m a.peers }
    let o := OriginAfter h.stamp
    let moved := { marked with
      pgn := s.pgn.prepareResume s.pitch s.items.vmax s.items.accel o
      ssv := OnForward s.ssv
      ixs := { s.ixs with state := .moving, origin := some o, resumeStep := .none }
      lpt := if s.har.announcedLevel = 7 then a.lpt.enqueue (.stop s.ixs.index s.har.announcedCause 7) else a.lpt }
    let halts := s.har.level .syncDeviation = 7 ∧ s.har.isPending .syncDeviation = false
    ∃ t, exec (.resumeObserved h i sp) s = .next t
      ∧ (¬taken → Follows [] a t)
      ∧ (taken → s.pgn.stopSetpoint ≠ some sp → t.har.isPending .syncDeviation = true)
      ∧ (taken → ¬(s.ixs.state = .resumeWait ∧ complete) → Follows [.syncDeviation] marked t
          ∧ (s.pgn.stopSetpoint = some sp → Leads marked t))
      ∧ (taken → s.ixs.state = .resumeWait → complete → t.ixs = moved.ixs
          ∧ (s.pgn.stopSetpoint = some sp → Leads moved t)
          ∧ (s.pgn.stopSetpoint ≠ some sp → ¬halts → PairAnnounced s → Follows [.syncDeviation] moved t)
          ∧ (s.pgn.stopSetpoint ≠ some sp → halts → t.pgn = moved.pgn ∧ t.ssv.shuttle = .halted
              ∧ t.ssv.haltedFrom = some .forward ∧ t.ssv.drive = false ∧ t.har.announcedLevel = 7
              ∧ LatchedKept [.syncDeviation] s t ∧ ∃ q ∈ t.lpt.queue, ∃ k : Nat, q.payload = .stop s.ixs.index k 7)
          ∧ moved.pgn.origin = o
          ∧ ∀ pos, s.pgn.stopPosition = some pos →
              Prepared s.pgn moved.pgn .resume (s.pitch * 256 - pos) s.items.vmax s.items.accel
              ∧ moved.pgn.base = pos ∧ moved.pgn.setpoint = ((pos / 256 : Nat) : Int))

/-- Table 7-5: fixture status, fixture record and cause, from the HANDOVER content of the index just made (none without a HANDOVER, the
empty marker as `some none`), pallet present and the plate code. -/
def Sys2Proof.Claims.Decision (content : Option (Option PalletRecord)) (present : Bool) (plate : Nat) :
    FixtureStatus × Option PalletRecord × Option Cause :=
  if present then
    match content with
    | some (some r) => if plate = r.id then (.held, some r, none) else (.unknown, none, some .palletIdentity)
    | _ => (.unknown, none, some .recordMissing)
  else
    match content with
    | some (some _) => (.empty, none, some .palletMissing)
    | some none => (.empty, none, none)
    | none => (.empty, none, some .recordMissing)

/-- R60, R126, R127, Table 6-3: the wait of a station in SEATING for its upstream member ends in `u`: the upstream timer stops, the decision
of Table 7-5 is made on the HANDOVER content of the index just made, and the fixture is given the seat or, with the status EMPTY, the open
command. -/
def Sys2Proof.Claims.Decided (u t : State) : Prop :=
  let c : Option (Option PalletRecord) := match u.rst.incoming with
    | some y => if y.index = u.indexMade then some y.content else none
    | none => none
  let d := Decision c u.inputs.palletPresent u.inputs.plate.toNat
  let fx := if d.1 = .empty then Opens u else Seats u
  let settled := (fx.state = .secured ∧ d.1 ≠ .empty) ∨ (fx.state = .open ∧ d.1 = .empty)
  let w := { u with
    rst := { u.rst with status := d.1, record := d.2.1 }
    fxs := fx
    ixs := { u.ixs with upstreamTimer := none, lowerExpired := none, state := if settled then .working else .seating
                        step := if settled then .none else .seat } }
  Follows d.2.2.toList w t ∧ (∀ x ∈ d.2.2, t.har.isPending x = true) ∧ (d.2.2 = none → Leads w t)

/-- R59, R60: the lift DOWN in LOWERING and the HANDOVER done with, the station `s` queues LOWERED, commands the return and enters SEATING.
The load station enters WORKING; elsewhere the upstream LOWERED heard before ends the wait at once, an upstream timer that is due already
expires, or it runs for what is left of LOWER_TIMEOUT since profile completion. -/
def Sys2Proof.Claims.LoweringEnds (s t : State) : Prop :=
  let u := LoweredQueued s
  let limit := Timeout s.items.lowerTimeout
  (s.isLoad = true → Leads { u with
      ixs := { u.ixs with upstreamTimer := none, lowerExpired := none, state := .working, step := .none } } t)
    ∧ (s.isLoad = false → UpstreamLowered s → LevelsLegal s → Decided u t)
    ∧ (s.isLoad = false → ¬UpstreamLowered s → s.ixs.sinceCompletion < limit →
        Leads { u with ixs := { u.ixs with upstreamTimer := some (limit - s.ixs.sinceCompletion) } } t)
    ∧ (s.isLoad = false → ¬UpstreamLowered s → limit ≤ s.ixs.sinceCompletion →
        Follows [.lowerFault] { u with ixs := { u.ixs with upstreamTimer := none, lowerExpired := some .upstream } } t
        ∧ (LevelsLegal s → t.har.isPending .lowerFault = true))

/-- R60, R105, R109, R110, R114, R115, R126, R127: LOWERED of the index just made, or a forming JOIN, from the member directly upstream ends
the wait in SEATING: the fixture status, record and cause become those of Table 7-5, and the fixture is seated, or with the status EMPTY
kept open, from whatever state it stands in. SEATING ends in WORKING at once where it is then settled. That an open command stops the clamp
timer is the model's choice (assumption 17). -/
def Obligations.SeatingDecision : Prop :=
  ∀ (s : State) (h : Header) (m : Nat) (clock : FrameClock),
    s.ixs.state = .seating → s.ixs.step = .upstream → m + 1 = s.ownIdx → LevelsLegal s →
    (Arrives s h (.lowered s.indexMade) m false clock →
      ∃ t, exec (.loweredObserved h s.indexMade) s = .next t ∧ Decided { Arrived s m false with
        peers := updateAt (fun p => { p with lastLowered := some s.indexMade }) m (Arrived s m false).peers } t)
    ∧ ∀ f : JoinFields, f.forming = true → Arrives s h (.join f) m false clock →
      ∃ t, exec (.joinObserved h f) s = .next t ∧ Decided { JoinWritten s m false f with
        peers := (JoinWritten s m false f).peers.map fun p => { p with ready := false }
        lpt := (JoinWritten s m false f).lpt.enqueue s.joinPayload } t

/-- R154, R52, R53, R56, R62, R65: the state after STOP of the station's index has been taken by the Line Port and the Hold Arbiter, its
own STOP withdrawn. -/
def Sys2Proof.Claims.StopTaken (s : State) (m : Nat) (own : Bool) (cause level : Nat) : State :=
  let a := Arrived s m own
  { a with
    lpt := a.lpt.withdraw (isStopOf s.ixs.index)
    peers := updateAt (fun p => if p.level < level then { p with level := level, cause := cause } else p) m a.peers }

/-- R52, R53, R56, R62, R65, R77, R80, R105, R115: STOP of the station's index by sequencer state. RELEASING and LIFT_WAIT are abandoned,
the lift lowered and with it DOWN the seat command given; MOVING keeps the stop stamp and, where the ramp start period `j` lies within the
profile, ramps down from it in STOPPING; STOPPED and RESUME_WAIT clear the RESUME marks and stay or go back to STOPPED; other states go on.
STOP of another index does nothing. That levels are written first, and that the first period not yet begun is the second after the last
ended also while the profile catches up, are the model's choices (assumptions 28 and 43). That a HALTED shuttle keeps its reposition target
is the model's choice (assumption 44). -/
def Obligations.StopByState : Prop :=
  ∀ (s : State) (h : Header) (i : IndexNo) (c lv m : Nat) (own : Bool) (clock : FrameClock),
    Arrives s h (.stop i c lv) m own clock →
    let a := StopTaken s m own c lv
    let d : Int := ((h.stamp + 2000#32) - s.ixs.origin.getD s.pgn.origin).toInt
    ∃ t, exec (.stopObserved h i c lv) s = .next t
      ∧ (i ≠ s.ixs.index → Leads (Arrived s m own) t)
      ∧ (i = s.ixs.index →
          (s.ixs.state ∉ [.releasing, .liftWait, .moving, .stopped, .resumeWait] → Leads a t)
          ∧ (s.ixs.state = .releasing ∨ s.ixs.state = .liftWait → s.ssv.liftState ≠ .down → Leads { a with
              lpt := (a.lpt.withdraw (ofKind .lifted)).withdraw (isStopOf s.ixs.index)
              peers := a.peers.map fun p => { p with ready := false, lifted := false }
              ssv := { s.ssv with lift := false, liftState := .falling }
              ixs := { s.ixs with
                state := .abandoning, step := .abandonLift, lowerExpired := none, liftBarrierTimer := none
                loweringTimer := some (Timeout s.items.lowerTimeout) } } t)
          ∧ (s.ixs.state = .releasing ∨ s.ixs.state = .liftWait → s.ssv.liftState = .down →
              let fx := if s.rst.status = .empty then s.fxs else Seats s
              let settled := (fx.state = .secured ∧ s.rst.status ≠ .empty) ∨ (fx.state = .open ∧ s.rst.status = .empty)
              Leads { a with
                lpt := (a.lpt.withdraw (ofKind .lifted)).withdraw (isStopOf s.ixs.index)
                peers := a.peers.map fun p => { p with ready := false, lifted := false }
                ssv := { s.ssv with lift := false }
                fxs := fx
                ixs := { s.ixs with
                  state := if settled then .working else .abandoning
                  step := if settled then .none else .abandonSeat
                  lowerExpired := none, liftBarrierTimer := none, loweringTimer := none } } t)
          ∧ (s.ixs.state = .moving → ∃ j : Nat, 1 ≤ j ∧ d ≤ ((j : Int) - 1) * 1000
              ∧ (∀ k : Nat, 1 ≤ k → k < j → ((k : Int) - 1) * 1000 < d)
              ∧ (s.pgn.periods < j → Leads { a with ixs := { s.ixs with stopStamp := some h.stamp } } t)
              ∧ (j ≤ s.pgn.periods → Leads { a with
                  ixs := { s.ixs with stopStamp := some h.stamp, state := .stopping }
                  pgn := s.pgn.ramp j
                  ssv := if s.ssv.shuttle = .halted then { s.ssv with haltedFrom := some .stopping }
                    else { s.ssv with shuttle := .stopping } } t
                ∧ (s.pgn.phase ≠ .ramping → s.pgn.kind.common = true → t.pgn.phase = .ramping
                    ∧ t.pgn.rampFrom = some (max j (if s.pgn.begun then s.pgn.counter + 2 else 1)))))
          ∧ (s.ixs.state = .stopped ∨ s.ixs.state = .resumeWait → Leads { a with
              lpt := a.lpt.withdraw (ofKind .resume)
              peers := a.peers.map fun p => { p with resume := false }
              ixs := { s.ixs with state := .stopped, resumeStep := .none } } t))

/-- R41, R45, R154: HOLD writes its sender's level and cause, and at a level of 4 or higher clears its READY mark. LOWERED writes its
sender's last LOWERED index, in any state other than OFFLINE; where it does not end the wait of R60 it does nothing else. -/
def Obligations.HoldAndLoweredWriteColumns : Prop :=
  ∀ (s : State) (h : Header) (m : Nat) (own : Bool) (clock : FrameClock),
    let a := Arrived s m own
    (∀ lv c : Nat, Arrives s h (.hold lv c) m own clock →
      ∃ t, exec (.holdObserved h lv c) s = .next t ∧ Follows [] { a with
        peers := updateAt (fun p => { p with level := lv, cause := c, ready := if 4 ≤ lv then false else p.ready }) m
          a.peers } t)
    ∧ ∀ i : IndexNo, Arrives s h (.lowered i) m own clock →
        ¬(i = s.indexMade ∧ s.ixs.state = .seating ∧ s.ixs.step = .upstream ∧ m + 1 = s.ownIdx) →
        ∃ t, exec (.loweredObserved h i) s = .next t ∧ Follows [] { a with
          peers := updateAt (fun p => { p with lastLowered := some i }) m a.peers } t

/-- R101: POSITION of another member deviates from the copy taken at its frame start: same index number and kind, a profile or a stopped
one, and a period counter more than 2 periods outside p to p + 7. -/
def Sys2Proof.Claims.Deviates (s : State) (f : PositionFields) (c : FrameCopy) : Prop :=
  f.index = s.ixs.index
    ∧ ((f.kind = .forward ∧ c.kind = .forward) ∨ (f.kind = .resume ∧ c.kind = .resume))
    ∧ (c.phase = .waiting ∨ c.phase = .running ∨ c.phase = .ramping ∨ (c.phase = .idle ∧ c.stopHeld = true))
    ∧ (c.counter + 2 < f.period ∨ f.period + 7 + 2 < c.counter)

/-- R100, R101: POSITION writes its sender's last POSITION with the time of its observation; one of another member that deviates raises
SYNC_DEVIATION, and any other raises nothing. -/
def Obligations.PositionTested : Prop :=
  ∀ (s : State) (h : Header) (f : PositionFields) (m : Nat) (own : Bool) (clock : FrameClock) (copy : FrameCopy),
    Arrives s h (.position f) m own clock → LevelsLegal s → s.ssv.frameCopy = some copy →
    let u := { Arrived s m own with
      peers := updateAt (fun p => { p with position := some ⟨f, s.ltu.lineTime⟩ }) m (Arrived s m own).peers }
    ∃ t, exec (.positionObserved h f) s = .next t
      ∧ (own = false → Deviates s f copy → Follows [.syncDeviation] u t ∧ t.har.isPending .syncDeviation = true)
      ∧ (own = true ∨ ¬Deviates s f copy → Follows [] u t)

/-- R124, R125, R59: HANDOVER of the member directly upstream for the index in exchange fills the incoming slot; one of another member or
index is left. The station's own sets its outgoing record OBSERVED; outside LOWERING's wait for it nothing else follows. -/
def Obligations.HandoverObserved : Prop :=
  ∀ (s : State) (h : Header) (i : IndexNo) (c : Option PalletRecord) (m : Nat) (own : Bool) (clock : FrameClock),
    Arrives s h (.handover i c) m own clock →
    let a := Arrived s m own
    let wanted := s.isLoad = false ∧ m + 1 = s.ownIdx ∧
      ((s.ixs.state ∈ [.moving, .stopping, .stopped, .resumeWait] ∧ i = s.ixs.index)
        ∨ ((s.ixs.state = .lowering ∨ (s.ixs.state = .seating ∧ s.ixs.step = .upstream)) ∧ i = s.indexMade))
    ∃ t, exec (.handoverObserved h i c) s = .next t
      ∧ (own = false → wanted → Follows [] { a with rst := { s.rst with incoming := some ⟨i, c⟩ } } t)
      ∧ (own = false → ¬wanted → Follows [] a t)
      ∧ (own = true → ¬(s.ixs.state = .lowering ∧ s.ixs.step = .handover) → ∀ o, s.rst.outgoing = some o →
          (o.index ≠ i → Follows [] a t)
          ∧ (o.index = i → Follows [] { a with
              rst := { s.rst with outgoing := some { o with state := .observed } }
              ixs := { s.ixs with ownHandover := true } } t))

/-- R59, R60, R90, R95: with the lift DOWN in LOWERING, the observation of the station's own HANDOVER queues LOWERED of the index just made,
commands the return and enters SEATING, with all that may follow from the entry. That every shuttle state but HALTED returns from PITCH is
read from the rules (assumption 24). That the shuttle state is that of before the frame, also where a self-clearing cause ends with it, is
the model's choice (assumption 47). That a HALTED shuttle keeps its reposition target is the model's choice (assumption 44). -/
def Obligations.OwnHandoverEndsLowering : Prop :=
  ∀ (s : State) (h : Header) (i : IndexNo) (c : Option PalletRecord) (m : Nat) (clock : FrameClock) (o : Outgoing),
    Arrives s h (.handover i c) m true clock → s.ixs.state = .lowering → s.ixs.step = .handover →
    s.rst.outgoing = some o →
    let a := Arrived s m true
    let observed := { a with
      rst := { s.rst with outgoing := some { o with state := .observed } }, ixs := { s.ixs with ownHandover := true } }
    ∃ t, exec (.handoverObserved h i c) s = .next t
      ∧ (o.index ≠ i → Leads a t)
      ∧ (o.index = i → s.ssv.liftState ≠ .down → Leads observed t)
      ∧ (o.index = i → s.ssv.liftState = .down → LoweringEnds observed t)

/-! Line time. -/

/-- R25: the correction of a sample list. -/
def Sys2Proof.Claims.Correction (l : List Sample) : Int :=
  if l = [] then 0 else Int.tdiv (Int.tdiv (l.map Sample.offset).sum l.length) 2

/-- R26: whether a correction is clamped. -/
def Sys2Proof.Claims.Clamps (s : State) : Prop :=
  s.ltu.step = .coarse ∨ s.ltu.step = .fine ∨ s.ixs.state = .moving ∨ s.ixs.state = .stopping

/-- R21: the first beat boundary later than a line time. -/
def Sys2Proof.Claims.FirstLater (t : LineTime) : LineTime :=
  if (t.toNat / 50000 + 1) * 50000 ≤ 4294950000 then BitVec.ofNat 32 ((t.toNat / 50000 + 1) * 50000) else 0

/-- R26, Table 2-2: at a beat instant the correction of R25 steps line time, clamped to -25 to 25 µs when the step state before the
evaluation is COARSE or FINE or the sequencer is in MOVING or STOPPING, and unclamped otherwise. -/
def Obligations.CorrectionClamped : Prop :=
  ∀ (s : State) (b : LineTime), s.ltu.nextBeat = some b →
    let c := Correction s.ltu.samples
    ∃ (t : State) (k : Int), exec .beatInstant s = .next t ∧ t.ltu.lineTime = s.ltu.lineTime + BitVec.ofInt 32 k
      ∧ (Clamps s → (25 < c → k = 25) ∧ (c < -25 → k = -25) ∧ (-25 ≤ c → c ≤ 25 → k = c)) ∧ (¬Clamps s → k = c)

/-- R28, Table 2-3: at a beat instant the two runs are updated by the samples of the interval. A window includes both its bounds, a run
stops at 255, and an interval without samples resets both. -/
def Obligations.RunsUpdated : Prop :=
  ∀ (s : State) (b : LineTime), s.ltu.nextBeat = some b →
    let within (w : Int) (x : Sample) : Prop := -w ≤ x.offset ∧ x.offset ≤ w
    let l := s.ltu.samples
    ∃ t, exec .beatInstant s = .next t
      ∧ (l ≠ [] → (∀ x ∈ l, within 25 x) →
          t.ltu.coarseRun = min (s.ltu.coarseRun + 1) 255 ∧ t.ltu.fineRun = min (s.ltu.fineRun + 1) 255)
      ∧ (l ≠ [] → (∀ x ∈ l, within 250 x) → (∃ x ∈ l, ¬within 25 x) →
          t.ltu.coarseRun = min (s.ltu.coarseRun + 1) 255 ∧ t.ltu.fineRun = 0)
      ∧ ((∃ x ∈ l, ¬within 250 x) → t.ltu.coarseRun = 0 ∧ t.ltu.fineRun = 0)
      ∧ (l = [] → t.ltu.coarseRun = 0 ∧ t.ltu.fineRun = 0)

/-- R22, R23, R27, R29, R31: a beat instant steps line time by the correction, sets the step state by its runs, empties the sample list,
queues one BEAT with that state, notes the step against the frame on the link, and sets the next beat boundary: the first one later than the
stepped line time or, where a backward step makes that the boundary just reached or one before it, the first one later than the boundary
reached (assumption 10). A fall from COARSE or FINE to NONE in MOVING or STOPPING raises STEP_LOST_IN_MOTION. The profile is left as it is,
but for the model's own note of the line time before the step (R72, assumption 3). -/
def Obligations.BeatInstantTaken : Prop :=
  ∀ (s : State) (b : LineTime), s.ltu.nextBeat = some b → LevelsLegal s →
    let c := Correction s.ltu.samples
    ∃ (t : State) (k : Int) (b' : LineTime), exec .beatInstant s = .next t
      ∧ (Clamps s → k = max (-25) (min 25 c)) ∧ (¬Clamps s → k = c)
      ∧ t.ltu.lineTime = s.ltu.lineTime + BitVec.ofInt 32 k
      ∧ t.ltu.samples = [] ∧ t.ltu.nextBeat = some b' ∧ b'.toNat % 50000 = 0 ∧ b'.toNat ≤ 4294950000
      ∧ 0 < (b' - b).toInt
      ∧ b' = (if 0 < (FirstLater t.ltu.lineTime - b).toInt then FirstLater t.ltu.lineTime else FirstLater b)
      ∧ t.ltu.step = (if 16 ≤ t.ltu.coarseRun then (if 32 ≤ t.ltu.fineRun then .fine else .coarse) else .none)
      ∧ Follows [.stepLostInMotion] { s with
          ltu := t.ltu
          pgn := { s.pgn with stepFrom := some (s.pgn.stepFrom.getD s.ltu.lineTime) }
          lpt := { s.lpt with frame := s.lpt.frame.map fun (f : FrameClock) => { f with stepped := f.stepped + k } }.enqueue
            (.beat t.ltu.step) } t
      ∧ (s.ltu.step ≠ .none → t.ltu.step = .none → s.ixs.state = .moving ∨ s.ixs.state = .stopping →
          t.har.isPending .stepLostInMotion = true)
      ∧ (¬(s.ltu.step ≠ .none ∧ t.ltu.step = .none ∧ (s.ixs.state = .moving ∨ s.ixs.state = .stopping)) →
          t.har.isPending .stepLostInMotion = s.har.isPending .stepLostInMotion)

/-! Timers and the events of the state. -/

/-- R33, R49, R58, R60, R61, R90, R108 to R110: each of these timers, expiring while what it bounds is not done, is stopped and raises its
cause; the wait itself goes on. A member that falls silent makes PEER_SILENT pending, its silence count at 150 ms or more (assumption
19). -/
def Obligations.ExpiriesRaiseCauses : Prop :=
  ∀ s : State, s.ixs.state ≠ .offline → LevelsLegal s →
    let Raises (i : Instr) (c : Cause) (u : State) : Prop :=
      ∃ t, exec i s = .next t ∧ Follows [c] u t ∧ t.har.isPending c = true
    (s.ixs.liftBarrierTimer ≠ none → s.ixs.state = .releasing ∨ s.ixs.state = .liftWait →
        Raises .liftBarrierTimerExpiry .liftBarrierTimeout { s with ixs := { s.ixs with liftBarrierTimer := none } })
    ∧ (s.ixs.loweringTimer ≠ none → s.ixs.step ∈ [.abandonLift, .inPosition, .liftDown] →
        Raises .loweringTimerExpiry .lowerFault
          { s with ixs := { s.ixs with loweringTimer := none, lowerExpired := some s.ixs.step } })
    ∧ (s.ixs.upstreamTimer ≠ none → s.ixs.step = .upstream →
        Raises .upstreamTimerExpiry .lowerFault
          { s with ixs := { s.ixs with upstreamTimer := none, lowerExpired := some .upstream } })
    ∧ (s.ssv.homeCheckTimer ≠ none → ∃ t, exec .homeCheckTimerExpiry s = .next t ∧ t.ssv.homeCheckTimer = none
        ∧ Follows [.returnFault] { s with ssv := { s.ssv with homeCheckTimer := none } } t
        ∧ t.har.isPending .returnFault = true)
    ∧ (s.fxs.stepTimer ≠ none → s.fxs.state = .opening →
        Raises .releaseStepTimerExpiry .releaseFault { s with fxs := { s.fxs with stepTimer := none } })
    ∧ (s.fxs.stepTimer ≠ none → s.fxs.state = .locating →
        Raises .locateTimerExpiry .locateFault { s with fxs := { s.fxs with stepTimer := none } })
    ∧ (s.fxs.clampTimer ≠ none → s.fxs.state = .clamping →
        Raises .clampTimerExpiry .clampNotSettled { s with fxs := { s.fxs with clampTimer := none } })
    ∧ ∀ (i : Nat) (p : Peer) (us : Nat), s.peers[i]? = some p → p.silence = some us →
        ∃ t, exec (.memberSilent (i + 1)) s = .next t ∧ t.har.isPending .peerSilent = true
          ∧ Follows [] { s with peers := updateAt (fun q => { q with silence := some (max 150000 us) }) i s.peers } t

/-- R167, R166: JOIN_REPETITION in FORMING queues JOIN with the station's configuration, index number, forming flag and announced pair, and
starts the 500 ms anew. R171: with every member matching, the step FINE, the shuttle AT_HOME and an EMPTY fixture OPEN, the station leaves
FORMING for WORKING, its JOIN withdrawn; short of that FORMING_EXIT does nothing, which is the model's choice (assumption 7). -/
def Obligations.FormationEvents : Prop :=
  ∀ s : State,
    (s.ixs.state = .forming → s.ixs.joinTimer ≠ none → exec .joinRepetition s = .next { s with
      ixs := { s.ixs with joinTimer := some 500000 }
      lpt := s.lpt.enqueue (.join
        { pitch := s.pitch, vmax := s.items.vmax, accel := s.items.accel, stopDecel := s.items.stopDecel
          members := s.memberCount, index := s.ixs.index, forming := true, level := s.har.announcedLevel
          cause := s.har.announcedCause }) })
    ∧ (¬FormingEnds s → exec .formingExit s = .next s)
    ∧ (FormingEnds s → ∃ t, exec .formingExit s = .next t
        ∧ Leads { s with
            ixs := { s.ixs with state := .working, joinTimer := none }, lpt := s.lpt.withdraw (ofKind .join) } t
        ∧ (∀ q ∈ t.lpt.queue, ∀ f : JoinFields, q.payload = .join f → f.forming = false)
        ∧ (CausesSettled s → ∀ q ∈ t.lpt.queue, q.payload.kind ≠ .join)
        ∧ (∀ q, s.lpt.buffer = some q → q.payload.kind = .join → t.lpt.buffer = some q ∧ t.lpt.withdrawHeld = true))

/-- R42, R122: under the conditions of R42 READY_OFFER queues READY with the station's index and the record fields and forecast verdict of
that instant, and enters READY; short of them it does nothing, which is the model's choice (assumption 7). -/
def Obligations.ReadyOffered : Prop :=
  ∀ s : State, (s.rst.status ≠ .held → s.rst.record = none) →
    let offers (f : ReadyFields) : Prop := ∃ t, exec .readyOffer s = .next t ∧
      Leads { s with ixs := { s.ixs with state := .ready }, lpt := s.lpt.enqueue (.ready f) } t
        ∧ (CausesSettled s ∨ (s.har.causes.length = 24 ∧ PairAnnounced s ∧ t.har.announcedLevel ≤ 3) →
            t.ixs.state = .ready ∧ ∃ q ∈ t.lpt.queue, q.payload = .ready f)
    (ReadyGoes s → s.rst.status = .empty → offers ⟨s.ixs.index, 0, 0, .good, .empty⟩)
    ∧ (∀ (r : PalletRecord) (x : MachResult), ReadyGoes s → s.rst.status = .held → s.rst.record = some r →
        s.ixs.pendingResult = some x → ∃ v : Verdict,
          v.code = max r.verdict.code (resultVerdict x).code ∧ offers ⟨s.ixs.index, r.id, r.variant, v, .held⟩)
    ∧ (¬ReadyGoes s → exec .readyOffer s = .next s)

/-- R73, R83, R84, R88, R89: homing starts in FORMING with the shuttle UNHOMED, the lift DOWN, no level-7 cause and no RETURN_FAULT pending:
the drive is asserted, the homing timer runs for 30,000 ms, and the homing run is prepared from the encoder count toward lower positions at
HOMING_SPEED and ACCEL, without a distance, or with the home sensor on a reposition of 20,000 µm toward higher ones first. Its timer's
expiry raises RETURN_FAULT; a creep then ramps down, and a reposition runs on, to end in UNHOMED. That HOMING_START does nothing elsewhere,
and that a prepared profile keeps its base, is the model's choice (assumptions 7 and 38). That at the expiry a run that still waits for its
local origin counts as creeping and ramps down from period 1, and a reposition that waits as running, is the model's choice (assumption 46).
That the homing run stays in RUNNING as it ramps down is read from the rules (assumption 26). -/
def Obligations.HomingStartsAndExpires : Prop :=
  ∀ s : State,
    let v := { s.ssv with drive := true, shuttle := .homing, homingTimer := some 30000000 }
    let x := s.ssv.encoder.toInt
    (¬HomingStarts s → exec .homingStart s = .next s)
    ∧ (HomingStarts s → s.inputs.home = false → ∃ g, exec .homingStart s = .next { s with
        ssv := { v with homingStage := .creep, repositionTarget := none, repositionUse := none }, pgn := g }
      ∧ PreparedLocal s g .homing 0 s.items.homingSpeed x false)
    ∧ (HomingStarts s → s.inputs.home = true → ∃ g, exec .homingStart s = .next { s with
        ssv := { v with homingStage := .offCam, repositionTarget := some (x + 20000), repositionUse := some .offCam }, pgn := g }
      ∧ PreparedLocal s g .reposition (20000 * 256) s.items.homingSpeed x true)
    ∧ (s.ssv.homingTimer ≠ none → s.ixs.state ≠ .offline → LevelsLegal s →
        ∃ t, exec .homingTimerExpiry s = .next t ∧ t.har.isPending .returnFault = true ∧ t.ssv.homingTimer = none
          ∧ let ends (w : Ssv) (g : Pgn) : Prop := Follows [.returnFault] { s with ssv := w, pgn := g } t
              ∧ (CausesSettled s → s.har.level .returnFault ≠ 7 ∨ s.har.isPending .returnFault = true →
                  t.ssv = w ∧ t.pgn = g)
            let w := { s.ssv with homingTimer := none }
            (s.ssv.homingStage = .creep → ends { w with homingStage := .rampFailed }
              { s.pgn with rampFrom := some (if s.pgn.begun then s.pgn.counter + 2 else 1) })
            ∧ (s.ssv.homingStage = .edgeRamp → ends { w with homingStage := .rampFailed } s.pgn)
            ∧ (s.ssv.homingStage = .offCam ∨ s.ssv.homingStage = .toZero →
                ends { w with homingStage := .repositionFailed } s.pgn)
            ∧ (s.ssv.homingStage = .check → s.ssv.shuttle = .homing → ends { w with
                homeCheckTimer := none, homeCheck := false, homingStage := .none, shuttle := .unhomed } s.pgn))

/-! The fixture. -/

/-- R110, R111: while the clamp pressure is made in CLAMPING or SECURED, SETTLE_MARK_SET sets the next of the seven marks, the settle
counter then standing at its threshold; the mark of SETTLE_STAGE makes a CLAMPING fixture SECURED, which ends a wait for it. Elsewhere it
does nothing, and a later mark than that of SETTLE_STAGE secures too: the model's choices (assumptions 7 and 16). -/
def Obligations.SettleMarkSet : Prop :=
  ∀ s : State,
    let may := (s.fxs.state = .clamping ∨ s.fxs.state = .secured) ∧ s.inputs.pressure = true ∧ s.fxs.marks < 7
    let f := { s.fxs with settle := 8 * 2 ^ (s.fxs.marks + 1) * 1000, marks := s.fxs.marks + 1 }
    let secures := s.fxs.state = .clamping ∧ s.items.settleStage ≤ s.fxs.marks + 1
    let waits := s.rst.status ≠ .empty ∧ ((s.ixs.state = .seating ∧ s.ixs.step = .seat)
      ∨ (s.ixs.state = .abandoning ∧ s.ixs.step = .abandonSeat))
    (¬may → exec .settleMarkSet s = .next s)
    ∧ (may → ∃ t, exec .settleMarkSet s = .next t
        ∧ (¬secures → Follows [] { s with fxs := f } t)
        ∧ (secures → ¬waits → Follows [] { s with fxs := { f with state := .secured, clampTimer := none } } t)
        ∧ (secures → waits → Follows [] { s with
            fxs := { f with state := .secured, clampTimer := none }
            ixs := { s.ixs with state := .working, step := .none, lowerExpired := none } } t))

/-- R104, R106, R107, R109, R111 to R113, R117: the sensors of the fixture. A pressure that goes off clears the marks, takes a SECURED
fixture back to CLAMPING with CLAMP_PRESSURE_LOST, and in opening step 1 begins step 2. Both locators engaged take LOCATING to CLAMPING,
without a timer in OFFLINE. A locator lost in CLAMPING or SECURED raises LOCATE_FAULT; one lost elsewhere, and a pressure, do nothing else,
short of the end of an opening. Locators of which one is taken as off are given by the values of both (assumption 35). -/
def Obligations.FixtureSensors : Prop :=
  ∀ s : State, LevelsLegal s →
    exec .clampPressureMade s = .next { s with inputs := { s.inputs with pressure := true } }
    ∧ (∀ b : Bool, exec (.palletPresentChange b) s = .next { s with inputs := { s.inputs with palletPresent := b } })
    ∧ (∀ c : BitVec 10, exec (.plateCodeChange c) s = .next { s with inputs := { s.inputs with plate := c } })
    ∧ (∀ a b : Bool,
        let i := { s.inputs with locator1 := s.inputs.locator1 || a, locator2 := s.inputs.locator2 || b }
        exec (.locatorsEngaged a b) s = .next { s with
          inputs := i
          fxs := if s.fxs.state = .locating ∧ i.locator1 = true ∧ i.locator2 = true then
              { s.fxs with state := .clamping, release := false, stepTimer := none
                           clampTimer := if s.ixs.state = .offline then none
                             else some (Timeout s.items.clampTimeout) }
            else s.fxs })
    ∧ (s.inputs.pressure = true →
        let i := { s.inputs with pressure := false }
        ∃ t, exec .clampPressureOff s = .next t
          ∧ (s.fxs.state = .clamping →
              Follows [] { s with inputs := i, fxs := { s.fxs with settle := 0, marks := 0 } } t)
          ∧ (s.fxs.state = .secured →
              Follows [.clampPressureLost]
                { s with inputs := i, fxs := { s.fxs with state := .clamping, settle := 0, marks := 0 } } t
              ∧ (s.ixs.state ∉ [.offline, .releasing, .abandoning] → t.har.isPending .clampPressureLost = true)
              ∧ (s.ixs.state ∈ [.offline, .releasing, .abandoning] →
                  t.har.isPending .clampPressureLost = s.har.isPending .clampPressureLost))
          ∧ (s.fxs.state = .opening → s.fxs.openingStep = .one → s.inputs.locator1 = true ∨ s.inputs.locator2 = true →
              Follows [] { s with inputs := i, fxs := { s.fxs with
                openingStep := .two, withdraw := true
                stepTimer := some (Timeout s.items.releaseStepTimeout) } } t)
          ∧ (s.fxs.state = .open ∨ s.fxs.state = .locating ∨ (s.fxs.state = .opening ∧ s.fxs.openingStep ≠ .one) →
              Follows [] { s with inputs := i } t))
    ∧ ∀ a b : Bool, (s.inputs.locator1 = true ∧ a = false) ∨ (s.inputs.locator2 = true ∧ b = false) →
        let u := { s with inputs := { s.inputs with locator1 := a, locator2 := b } }
        ∃ t, exec (.locatorOff a b) s = .next t
          ∧ (s.fxs.state = .clamping ∨ s.fxs.state = .secured →
              Follows [.locateFault] u t ∧ (s.ixs.state ≠ .offline → t.har.isPending .locateFault = true))
          ∧ (s.fxs.state = .open ∨ s.fxs.state = .locating
                ∨ (s.fxs.state = .opening ∧ (s.fxs.openingStep ≠ .two ∨ a = true ∨ b = true)) →
              Follows [] u t)

/-- R47, R53, R60, R91, R107: the fixture of `u` has just become OPEN, and it is reported. In RELEASING the lift is raised; with it UP
already LIFTED is queued and the station enters LIFT_WAIT. SEATING and ABANDONING that wait for an EMPTY fixture end in WORKING. -/
def Sys2Proof.Claims.OpenReported (u t : State) : Prop :=
  let waits := u.rst.status = .empty ∧ ((u.ixs.state = .seating ∧ u.ixs.step = .seat)
    ∨ (u.ixs.state = .abandoning ∧ u.ixs.step = .abandonSeat))
  (u.ixs.state = .releasing → u.ssv.liftState = .down ∨ u.ssv.liftState = .falling →
      Leads { u with ssv := { u.ssv with lift := true, liftState := .rising } } t)
    ∧ (u.ixs.state = .releasing → u.ssv.liftState = .rising → Leads { u with ssv := { u.ssv with lift := true } } t)
    ∧ (u.ixs.state = .releasing → u.ssv.liftState = .up → Leads { u with
        ssv := { u.ssv with lift := true }
        ixs := { u.ixs with state := .liftWait }
        lpt := u.lpt.enqueue (.lifted u.ixs.index) } t)
    ∧ (waits → Leads { u with ixs := { u.ixs with state := .working, step := .none, lowerExpired := none } } t)
    ∧ (u.ixs.state ≠ .releasing → ¬waits → Leads u t)

/-- R47, R53, R60, R106, R107, R114, R131: an opening ends in OPEN in every sequencer state, with what the report of OPEN brings about: in
step 2 when the last locator is taken as off, and in step 1 when the pressure is taken as off with both locators off already. -/
def Obligations.WithdrawnFixtureRaisesLift : Prop :=
  ∀ s : State, s.fxs.state = .opening →
    (s.fxs.openingStep = .two → s.inputs.locator1 = true ∨ s.inputs.locator2 = true →
      ∃ t, exec (.locatorOff false false) s = .next t ∧ OpenReported { s with
        inputs := { s.inputs with locator1 := false, locator2 := false }
        fxs := { s.fxs with state := .open, openingStep := .none, stepTimer := none } } t)
    ∧ (s.fxs.openingStep = .one → s.inputs.pressure = true → s.inputs.locator1 = false → s.inputs.locator2 = false →
      ∃ t, exec .clampPressureOff s = .next t ∧ OpenReported { s with
        inputs := { s.inputs with pressure := false }
        fxs := { s.fxs with state := .open, openingStep := .none, withdraw := true, stepTimer := none } } t)

/-! Motion. -/

/-- R58, R95, Table 5-4: the drive and the shuttle of a station that enters LOWERING with its shuttle HALTED and no cause of level 7 pending:
the drive is asserted, and a reposition to PITCH runs. -/
def Sys2Proof.Claims.RestartedToPitch (s : State) : Ssv :=
  { s.ssv with drive := true, shuttle := .repositioning, haltedFrom := none, repositionTarget := some (s.pitch : Int)
               repositionUse := some .toPitch }

/-- R58, R73, R83: the profile of that reposition, after `g`, from the encoder count at HOMING_SPEED and ACCEL; its base stays (assumption 38). -/
def Sys2Proof.Claims.PitchAgain (s : State) (g : Pgn) : Pgn :=
  g.prepareMove .reposition s.ssv.encoder.toInt s.pitch s.items.homingSpeed s.items.accel s.ltu.lineTime

/-- R54, R57, R58, R71, R75, R77, R119, R123: at the origin of a forward profile, also of one that a stop ramp has replaced from period 1,
period 1 begins, the fixture record moves to the outgoing side and the fixture becomes EMPTY. With the pending result appended it is queued
in HANDOVER of the index, or at the unload station joins the exit queue. The origin of a resume profile moves no record; one of no distance
completes the index there, a HALTED shuttle restarting with no level-7 cause pending. That the restart keeps the base is the model's choice
(assumption 38). That a HALTED shuttle whose halted-from becomes AT_END keeps its reposition target is the model's choice (assumption 44). -/
def Obligations.OriginMovesRecord : Prop :=
  ∀ (s : State) (r : PalletRecord) (x : MachResult), s.pgn.phase = .waiting ∨ s.pgn.phase = .ramping → s.pgn.begun = false →
    let g := { s.pgn with begun := true, stepFrom := none, phase := if s.pgn.phase = .waiting then .running else .ramping }
    let h := { g with phase := .idle, localTimer := none, stopPosition := none }
    let completes (v : Ssv) (p : Pgn) : Prop := ∃ t, exec .profileOrigin s = .next t ∧ Leads { s with
      pgn := p, ssv := v, sim := s.sim.shift
      peers := s.peers.map fun p => { p with ready := false, lifted := false, resume := false }
      ixs := { s.ixs with state := .lowering, index := s.ixs.index + 1, origin := none, stopStamp := none
                          step := .inPosition, lowerExpired := none, loweringTimer := some 250000
                          sinceCompletion := 0 } } t
    let out := { r with
      ops := (if r.ops.length < 16 then r.ops else r.ops.drop (r.ops.length - 15)) ++ [⟨s.stationNo, x⟩]
      truncated := r.truncated || decide (16 ≤ r.ops.length)
      verdict := if r.verdict.code < (resultVerdict x).code then resultVerdict x else r.verdict }
    (s.pgn.kind = .resume → 1 ≤ s.pgn.periods ∨ s.pgn.phase = .ramping →
        ∃ t, exec .profileOrigin s = .next t ∧ Leads { s with pgn := g } t ∧ (CausesSettled s → t.pgn = g))
    ∧ (s.pgn.kind = .resume → s.pgn.periods = 0 → s.pgn.phase = .waiting → s.ixs.state = .moving →
        (s.ssv.shuttle ≠ .halted → completes { s.ssv with shuttle := .atEnd } h)
        ∧ (s.ssv.shuttle = .halted → s.har.anyPendingAt 7 = true → completes { s.ssv with haltedFrom := some .atEnd } h)
        ∧ (s.ssv.shuttle = .halted → s.har.anyPendingAt 7 = false → completes (RestartedToPitch s) (PitchAgain s h)))
    ∧ (s.pgn.kind = .forward → 1 ≤ s.pgn.periods ∨ s.pgn.phase = .ramping → s.fxs.state = .open →
        let u (content : Option PalletRecord) := { s with
          pgn := g
          ixs := { s.ixs with ownHandover := false, pendingResult := none }
          rst := { s.rst with
            status := .empty, record := none
            exitQueue := if s.isUnload then s.rst.exitQueue ++ content.toList else s.rst.exitQueue
            outgoing := if s.isUnload then s.rst.outgoing else some ⟨s.ixs.index, content, .queued⟩ }
          lpt := if s.isUnload then s.lpt else s.lpt.enqueue (.handover s.ixs.index content) }
        s.ixs.state ≠ .releasing ∧ s.ixs.state ≠ .seating ∧ s.ixs.state ≠ .abandoning →
        ∃ t, exec .profileOrigin s = .next t
          ∧ (s.rst.status = .held → s.rst.record = some r → s.ixs.pendingResult = some x → Leads (u (some out)) t
              ∧ (CausesSettled (u (some out)) → t.pgn = g))
          ∧ (s.rst.status = .empty → Leads (u none) t ∧ (CausesSettled (u none) → t.pgn = g)))

/-- R87 to R90: the state of `s` once its reposition has completed, by what the reposition was for: AT_END; HALTED_MID, where the offer of
RESUME now waits for a word; UNHOMED after a failed homing; the home check; or the homing run off the cam. -/
def Sys2Proof.Claims.RepositionDone (s : State) : State :=
  let v := { s.ssv with repositionTarget := none, repositionUse := none }
  let check := { v with homeCheck := true, homeCheckTimer := some 500000 }
  if s.ssv.repositionUse = some .toPitch then { s with ssv := { v with shuttle := .atEnd } }
  else if s.ssv.repositionUse = some .toStop then { s with
    ssv := { v with shuttle := .haltedMid }
    ixs := if s.ixs.state = .resumeWait ∧ s.ixs.resumeStep = .repositioning then { s.ixs with resumeStep := .awaitWord }
      else s.ixs }
  else if s.ssv.homingStage = .repositionFailed then { s with ssv := { v with
    homingTimer := none, homeCheckTimer := none, homeCheck := false, homingStage := .none, shuttle := .unhomed } }
  else if s.ssv.repositionUse = some .toHome then
    { s with ssv := if s.ssv.homingStage = .toZero then { check with homingStage := .check } else check }
  else if s.ssv.repositionUse = some .offCam then { s with
    ssv := { v with homingStage := .creep }
    pgn := s.pgn.prepareHoming s.ssv.encoder.toInt s.items.homingSpeed s.items.accel s.ltu.lineTime }
  else s

/-- R89: the reposition off the home cam has not left it: its completion fails the homing with RETURN_FAULT. -/
def Sys2Proof.Claims.StillOnCam (s : State) : Prop :=
  s.ssv.repositionUse = some .offCam ∧ s.ssv.homingStage ≠ .repositionFailed ∧ s.inputs.home = true

/-- R73, R75: the wait of a return, reposition or homing profile over, it runs, its first period of 1,000 µs in progress; a return or
reposition of no distance completes there. A common profile has no such start, and LOCAL_PROFILE_START then does nothing (the model's
choice, assumption 7). -/
def Obligations.LocalProfileStarts : Prop :=
  ∀ s : State,
    let waits := (s.pgn.kind = .ret ∨ s.pgn.kind = .reposition ∨ s.pgn.kind = .homing) ∧ s.pgn.phase = .waiting
    let g := { s.pgn with begun := true, phase := .running, localTimer := some 1000 }
    let u := { s with pgn := { s.pgn with begun := true, phase := .idle, localTimer := none } }
    (¬waits → exec .localProfileStart s = .next s)
    ∧ (waits → s.pgn.kind = .homing ∨ 1 ≤ s.pgn.periods → ∃ t, exec .localProfileStart s = .next t
        ∧ Leads { s with pgn := g } t ∧ (CausesSettled s → t.pgn = g))
    ∧ (waits → s.pgn.kind = .ret → s.pgn.periods = 0 → ∃ t, exec .localProfileStart s = .next t
        ∧ Leads { u with ssv := { s.ssv with homeCheck := true, homeCheckTimer := some 500000 } } t
        ∧ (CausesSettled s → t.pgn = u.pgn ∧ t.ssv.homeCheck = true ∧ t.ssv.homeCheckTimer = some 500000))
    ∧ (waits → s.pgn.kind = .reposition → s.pgn.periods = 0 → s.ssv.repositionUse ≠ none → s.ssv.shuttle ≠ .halted →
        ¬StillOnCam s → ∃ t, exec .localProfileStart s = .next t ∧ Leads (RepositionDone u) t)

/-- R67, R68: the profile procedure. Its peak is the largest the two bounds allow; cruise and creep share out the rest; the velocities of
periods 1 to N add up to the distance exactly, none exceeds the limit, and none differs from the one before by more than the acceleration,
the rests before period 1 and after period N included. -/
def Obligations.ProfileProcedure : Prop :=
  ∀ dist vLimit accel : Nat, 1 ≤ accel → accel ≤ vLimit →
    let p := plan dist vLimit accel
    let v (i : Nat) : Nat := if 1 ≤ i ∧ i ≤ p.periods then planVelocity dist accel p i else 0
    (dist = 0 → p.periods = 0)
    ∧ (0 < dist → dist < accel → p.nAccel = 0 ∧ p.periods = 1)
    ∧ (accel ≤ dist → 1 ≤ p.nAccel ∧ p.nAccel * accel ≤ vLimit ∧ accel * p.nAccel ^ 2 ≤ dist
        ∧ (∀ n : Nat, n * accel ≤ vLimit → accel * n ^ 2 ≤ dist → n ≤ p.nAccel)
        ∧ p.vPeak = p.nAccel * accel ∧ dist = accel * p.nAccel ^ 2 + p.nCruise * p.vPeak + p.creep ∧ p.creep < p.vPeak
        ∧ p.periods = 2 * p.nAccel - 1 + p.nCruise + (if 0 < p.creep then 1 else 0))
    ∧ ((List.range p.periods).map fun i => v (i + 1)).sum = dist
    ∧ ∀ i : Nat, v i ≤ vLimit ∧ v (i + 1) ≤ v i + accel ∧ v i ≤ v (i + 1) + accel

/-- Table 4-3: the setpoint that an accumulator value gives for each kind of profile. -/
def Sys2Proof.Claims.SetpointOf (p : Pgn) (acc : Nat) : Int :=
  if p.kind = .forward ∨ p.kind = .resume then (((p.base + acc) / 256 : Nat) : Int)
  else if p.kind = .reposition ∧ p.up = true then p.start + ((acc / 256 : Nat) : Int)
  else p.start - ((acc / 256 : Nat) : Int)

/-- R93, R97: the drive setpoint line after a word that carries a setpoint has been started. -/
def Sys2Proof.Claims.WordStarted (v : Ssv) (setpoint : Int) : Ssv :=
  { v with word := setpoint, wordAge := 0, wordWaiting := false, followingError := v.encoder.toInt - setpoint }

/-- R58, R63, R90: nothing waits for what the next setpoint word reports. -/
def Sys2Proof.Claims.NothingWaits (s : State) : Prop :=
  s.ssv.homeCheck = false ∧ ¬(s.ixs.state = .lowering ∧ s.ixs.step = .inPosition)
    ∧ ¬(s.ixs.state = .resumeWait ∧ s.ixs.resumeStep = .awaitWord)

/-- R97: a word that carries this setpoint finds no following error above FOLLOW_LIMIT with the drive asserted. -/
def Sys2Proof.Claims.Follows97 (s : State) (setpoint : Int) : Prop :=
  s.ssv.drive = false ∨ (s.ssv.encoder.toInt - setpoint).natAbs ≤ s.items.followLimit

/-- R58, R63, R90, R98: what the reports of a word do that has been started in `s`, its following error tested: LOWERING in position drops
LIFT, RESUME_WAIT offers RESUME, a home check passes in position with the home sensor on; a dropped drive is out of position. That the offer
of RESUME needs the drive too is read from the rules (assumption 45). -/
def Sys2Proof.Claims.WordReports (s t : State) : Prop :=
  let near := s.ssv.drive = true ∧ s.ssv.followingError.natAbs ≤ s.items.inposWindow
  let lowers := s.ixs.state = .lowering ∧ s.ixs.step = .inPosition ∧ s.ssv.shuttle = .atEnd ∧ near
  let offers (pos : Nat) := s.ixs.state = .resumeWait ∧ s.ixs.resumeStep = .awaitWord ∧ s.ssv.drive = true
    ∧ s.pgn.stopPosition = some pos ∧ (s.ssv.encoder.toInt - ((pos / 256 : Nat) : Int)).natAbs ≤ s.items.inposWindow
  let passes := s.ssv.homeCheck = true ∧ s.inputs.home = true ∧ near
  (¬lowers → (∀ pos, ¬offers pos) → ¬passes → Leads s t)
    ∧ (passes → ¬lowers → (∀ pos, ¬offers pos) → s.ssv.shuttle ≠ .halted →
        let w := { s.ssv with homingTimer := none, homeCheckTimer := none, homeCheck := false, homingStage := .none
                              shuttle := .atHome }
        Leads { s with ssv := w } t ∧ (CausesSettled s → t.ssv = w))
    ∧ (lowers → ¬passes → s.ssv.liftState ≠ .down → Leads { s with
        ssv := { s.ssv with lift := false, liftState := .falling }
        ixs := { s.ixs with step := .liftDown, lowerExpired := none
                            loweringTimer := some (Timeout s.items.lowerTimeout) } } t)
    ∧ ∀ pos, offers pos → ¬passes → Leads { s with
        ixs := { s.ixs with resumeStep := .none }, lpt := s.lpt.enqueue (.resume s.ixs.index (pos / 256)) } t

/-- R71, R74, Table 4-3: the profile once a period of this velocity has ended. -/
def Sys2Proof.Claims.NextPeriod (p : Pgn) (v : Nat) : Pgn :=
  { p with velocity := v, acc := p.acc + v, counter := p.counter + 1, setpoint := SetpointOf p (p.acc + v)
           localTimer := p.localTimer.map fun _ => 1000, stepFrom := none }

/-- The profile ended with its last period: IDLE, its setpoint held. -/
def Sys2Proof.Claims.Ended (p : Pgn) : Pgn := { p with phase := .idle, localTimer := none }

/-- R84: the period about to end belongs to the ramp of a stop or of a homing run. -/
def Sys2Proof.Claims.Ramps (p : Pgn) : Prop := ∃ j, p.rampFrom = some j ∧ j ≤ p.counter + 1

/-- R76, R99: POSITION for the period that has led to `g`, with a following error. -/
def Sys2Proof.Claims.PositionOf (s : State) (g : Pgn) (e : Int) : Payload :=
  .position { index := s.ixs.index, kind := g.kind.code, period := min g.counter 65535
              offset := max (-2500000) (min 2500000 g.setpoint), error := max (-32767) (min 32767 e)
              saturated := decide (e < -32767 ∨ 32767 < e) }

/-- R74, R93, R97, R99: the state of `s` once a period has led to `g`: its setpoint is sent in a word, or waits while a word is being sent,
and at a multiple of 8 POSITION is queued, with the following error of the last word (assumption 9). -/
def Sys2Proof.Claims.GivenOut (s : State) (g : Pgn) : State :=
  let v := if 40 ≤ s.ssv.wordAge then WordStarted s.ssv g.setpoint else { s.ssv with wordWaiting := true }
  { s with
    pgn := g, ssv := v
    lpt := if g.counter % 8 = 0 then s.lpt.enqueue (PositionOf s g v.followingError) else s.lpt }

/-- R93, R94, R97: the word of `g` has found the following error beyond FOLLOW_LIMIT: FOLLOWING_ERROR is pending, the drive dropped and the
shuttle HALTED. -/
def Sys2Proof.Claims.FollowingLost (s t : State) (g : Pgn) : Prop :=
  LatchedKept [.followingError] s t ∧ t.har.isPending .followingError = true ∧ t.har.announcedLevel = 7
    ∧ t.ssv.drive = false ∧ t.ssv.shuttle = .halted ∧ t.ssv.word = g.setpoint ∧ t.ssv.wordAge = 0 ∧ t.ssv.wordWaiting = false
    ∧ t.ssv.followingError = s.ssv.encoder.toInt - g.setpoint ∧ t.ssv.encoder = s.ssv.encoder
    ∧ (g.counter % 8 = 0 → ∃ f ∈ t.lpt.queue, f.payload = PositionOf s g (s.ssv.encoder.toInt - g.setpoint))

/-- R94, R97: FOLLOW_LIMIT is exceeded at the word of `g`, in a state in which that raises FOLLOWING_ERROR anew. -/
def Sys2Proof.Claims.Exceeds (s : State) (g : Pgn) : Prop :=
  40 ≤ s.ssv.wordAge ∧ ¬Follows97 s g.setpoint ∧ LevelsLegal s ∧ s.ixs.state ≠ .offline
    ∧ s.har.isPending .followingError = false ∧ s.ssv.shuttle ≠ .halted

/-- R71, R73, R80, R85, R93 to R95, R97: PERIOD_END leads to the profile `g`, and with it to the outcome `f`: at once while a word is being
sent, and otherwise with the reports of the word of `g`. A following error beyond FOLLOW_LIMIT halts the shuttle: a forward or resume
profile and its ramp run on to their outcome, and a local profile ends without one. -/
def Sys2Proof.Claims.PeriodTaken (s : State) (g : Pgn) (f : State → State) : Prop :=
  let u := f (GivenOut s g)
  ∃ t, exec .periodEnd s = .next t
    ∧ (s.ssv.wordAge < 40 → Leads u t)
    ∧ (40 ≤ s.ssv.wordAge → Follows97 s g.setpoint → WordReports u t)
    ∧ (s.ssv.wordAge < 40 ∨ (Follows97 s g.setpoint ∧ NothingWaits s) → CausesSettled s → t.pgn = u.pgn)
    ∧ (Exceeds s g →
        let w := if s.pgn.kind = .forward ∨ s.pgn.kind = .resume then u else GivenOut s (Ended g)
        FollowingLost s t g ∧ OnlyIn causeBlocks s t ∧ IxsKept w t ∧ t.pgn = w.pgn ∧ t.ssv.haltedFrom = some w.ssv.shuttle)

/-- R71, R73 to R75, R77, R84, R85, R88 to R90, R93, R94, R97, R99: a period ends: its velocity is added to the accumulator, its setpoint
given out and sent in a word, or left to the end of the word being sent, and at each multiple of 8 POSITION is queued with the error of that
word. So do the periods before the ramp of a stop, period N among them, and those of a homing run's ramp, each slower by STOP_DECEL. The
last period of a return starts the home check; that of a reposition ends what it was for. The first period of velocity 0 of a homing run's
ramp ends the run: at a home edge a reposition to 0 follows, and a failed homing is UNHOMED. At a following error beyond FOLLOW_LIMIT the
shuttle halts, and with it a local profile. That completion follows the word, and the error that POSITION has while a word waits, are read
from the rules (assumption 9), and so is it that a word which offers RESUME has the drive asserted (assumption 45). -/
def Obligations.PeriodEnds : Prop :=
  ∀ s : State, PeriodRuns s → s.pgn.kind ≠ .none →
    let i := s.pgn.counter + 1
    let planned := planVelocity s.pgn.distance s.pgn.accel s.pgn.plan i
    (¬Ramps s.pgn → s.pgn.kind = .homing ∨ s.pgn.phase = .ramping ∨ i < s.pgn.periods →
        PeriodTaken s (NextPeriod s.pgn (if s.pgn.kind = .homing then min (i * s.pgn.accel) s.pgn.vLimit else planned)) id)
    ∧ (Ramps s.pgn → s.pgn.kind = .homing → s.items.stopDecel < s.pgn.velocity →
        PeriodTaken s (NextPeriod s.pgn (s.pgn.velocity - s.items.stopDecel)) id)
    ∧ (s.ssv.drive = true → s.ssv.shuttle ≠ .halted →
        let last := Ended (NextPeriod s.pgn planned)
        let halt := Ended (NextPeriod s.pgn 0)
        (¬Ramps s.pgn → s.pgn.phase = .running → i = s.pgn.periods →
          (s.pgn.kind = .ret → PeriodTaken s last fun u =>
            { u with ssv := { u.ssv with homeCheck := true, homeCheckTimer := some 500000 } })
          ∧ (s.pgn.kind = .reposition → s.ssv.repositionUse ≠ none → ¬StillOnCam s → PeriodTaken s last RepositionDone)
          ∧ (s.pgn.kind = .reposition → StillOnCam s → s.ssv.wordAge < 40 ∨ Follows97 s last.setpoint → NothingWaits s →
              LevelsLegal s → s.ixs.state ≠ .offline →
              ∃ t, exec .periodEnd s = .next t ∧ t.har.isPending .returnFault = true ∧ Follows [.returnFault]
                (let u := GivenOut s last
                 { u with ssv := { u.ssv with repositionTarget := none, repositionUse := none, homingTimer := none
                                              homeCheckTimer := none, homeCheck := false, homingStage := .none, shuttle := .unhomed } }) t))
        ∧ (Ramps s.pgn → s.pgn.kind = .homing → s.pgn.velocity ≤ s.items.stopDecel →
          (s.ssv.homingStage = .edgeRamp → PeriodTaken s halt fun u => { u with
              ssv := { u.ssv with homingStage := .toZero, repositionTarget := some 0, repositionUse := some .toHome }
              pgn := u.pgn.prepareMove .reposition s.ssv.encoder.toInt 0 s.items.homingSpeed s.items.accel s.ltu.lineTime })
          ∧ (s.ssv.homingStage = .rampFailed → PeriodTaken s halt fun u => { u with
              ssv := { u.ssv with homingTimer := none, homeCheckTimer := none, homeCheck := false, homingStage := .none
                                  shuttle := .unhomed } })))

/-- R57, R58, R74, R75, R87, R93 to R95, R97, R98, R143: the last period of a forward or resume profile in MOVING completes the index: its
setpoint, PITCH where the distance covered is the pitch, is held in IDLE and sent, or left to the end of the word being sent; the index
number advances, the image moves one place downstream, every mark is cleared, origin and stop stamp are none, and LOWERING begins, with the
lift lowered at once where the word is in position. A HALTED shuttle is halted from AT_END, or with no level-7 cause pending restarts, by a
reposition to PITCH. That completion follows the word is read from the rules (assumption 9). That the restart keeps the base is the model's
choice (assumption 38). -/
def Obligations.IndexCompletes : Prop :=
  ∀ s : State, s.ixs.state = .moving → s.pgn.kind = .forward ∨ s.pgn.kind = .resume → s.pgn.phase = .running →
    s.pgn.rampFrom = none → s.pgn.counter + 1 = s.pgn.periods → s.ssv.liftState = .up →
    let v := planVelocity s.pgn.distance s.pgn.accel s.pgn.plan s.pgn.periods
    let g := { Ended (NextPeriod s.pgn v) with stopPosition := none }
    let near := s.ssv.drive = true ∧ (s.ssv.encoder.toInt - g.setpoint).natAbs ≤ s.items.inposWindow
    ∃ t, exec .periodEnd s = .next t ∧ OnlyIn (.peers :: .sim :: causeBlocks) s t ∧ LatchedKept [.followingError] s t
      ∧ (s.ssv.shuttle ≠ .halted → t.pgn = g) ∧ (s.pgn.base + s.pgn.acc + v = s.pitch * 256 → g.setpoint = s.pitch)
      ∧ (40 ≤ s.ssv.wordAge → t.ssv.word = g.setpoint ∧ t.ssv.wordAge = 0 ∧ t.ssv.wordWaiting = false
          ∧ t.ssv.followingError = s.ssv.encoder.toInt - g.setpoint)
      ∧ (s.ssv.wordAge < 40 → t.ssv.wordWaiting = true ∧ t.ssv.word = s.ssv.word ∧ t.ssv.wordAge = s.ssv.wordAge)
      ∧ (g.counter % 8 = 0 → ∃ f ∈ t.lpt.queue, f.payload = PositionOf s g t.ssv.followingError)
      ∧ t.ixs.state = .lowering ∧ t.ixs.index = s.ixs.index + 1 ∧ t.ixs.origin = none ∧ t.ixs.stopStamp = none
      ∧ t.ixs.sinceCompletion = 0
      ∧ (40 ≤ s.ssv.wordAge → Follows97 s g.setpoint → near → s.ssv.shuttle ≠ .halted →
          t.ixs.step = .liftDown ∧ t.ixs.loweringTimer = some (Timeout s.items.lowerTimeout)
          ∧ t.ssv.lift = false ∧ t.ssv.liftState = .falling)
      ∧ (s.ssv.wordAge < 40 ∨ ¬near ∨ Exceeds s g ∨ s.ssv.shuttle = .halted →
          t.ixs.step = .inPosition ∧ t.ixs.loweringTimer = some 250000 ∧ t.ssv.lift = s.ssv.lift ∧ t.ssv.liftState = .up)
      ∧ (Exceeds s g → FollowingLost s t g ∧ t.ssv.haltedFrom = some .atEnd)
      ∧ (s.ssv.wordAge < 40 ∨ Follows97 s g.setpoint → CausesSettled s → s.ssv.shuttle ≠ .halted → t.ssv.shuttle =
          if s.ssv.homeCheck = true ∧ s.inputs.home = true ∧ near ∧ 40 ≤ s.ssv.wordAge then .atHome else .atEnd)
      ∧ (s.ssv.shuttle = .halted → CausesSettled s → s.ssv.homeCheck = false →
          (s.har.anyPendingAt 7 = true → t.pgn = g ∧ t.ssv.shuttle = .halted ∧ t.ssv.haltedFrom = some .atEnd)
          ∧ (s.har.anyPendingAt 7 = false → s.ssv.wordAge < 40 ∨ Follows97 s g.setpoint → t.pgn = PitchAgain s g
              ∧ t.ssv.drive = true ∧ t.ssv.shuttle = .repositioning ∧ t.ssv.haltedFrom = none
              ∧ t.ssv.repositionTarget = some (s.pitch : Int) ∧ t.ssv.repositionUse = some .toPitch))
      ∧ t.peers = s.peers.map (fun p => { p with ready := false, lifted := false, resume := false })
      ∧ t.sim.slots.length = s.sim.slots.length
      ∧ (s.sim.slots ≠ [] → t.sim.slots[0]? = some .empty ∧ some t.sim.exitSlot = s.sim.slots.getLast?)
      ∧ ∀ i : Nat, i + 1 < s.sim.slots.length → t.sim.slots[i + 1]? = s.sim.slots[i]?

/-- R62, R78, R79, R80, R87, R93 to R95, R97, R99: a period of a stop ramp: the velocity falls by STOP_DECEL to no less than 0, the position
is limited to PITCH, and the setpoint is the position divided by 256, sent in a word or left to the end of the one being sent. At velocity 0
the ramp ends, the position becomes the stop position, and STOPPING ends in STOPPED. A following error beyond FOLLOW_LIMIT halts the
shuttle, and the ramp runs on. That the ramp's end follows the word, and the error that POSITION has while a word is being sent, are read
from the rules (assumption 9). That a HALTED shuttle keeps its reposition target is the model's choice (assumption 44). -/
def Obligations.StopRampPeriod : Prop :=
  ∀ s : State, PeriodRuns s → s.pgn.kind = .forward ∨ s.pgn.kind = .resume → Ramps s.pgn →
    let v := s.pgn.velocity - s.items.stopDecel
    let pos := min (s.pgn.base + s.pgn.acc + v) (s.pitch * 256)
    let g := { s.pgn with velocity := v, acc := pos - s.pgn.base, counter := s.pgn.counter + 1
                          setpoint := ((pos / 256 : Nat) : Int), localTimer := s.pgn.localTimer.map fun _ => 1000
                          stepFrom := none }
    (0 < v → PeriodTaken s g id)
    ∧ (v = 0 → PeriodTaken s { g with phase := .idle, stopPosition := some pos } fun u => { u with
        ssv := if u.ssv.shuttle = .halted then { u.ssv with haltedFrom := some .haltedMid }
          else { u.ssv with shuttle := .haltedMid }
        ixs := { u.ixs with state := if u.ixs.state = .stopping then .stopped else u.ixs.state } })

/-- R58, R63, R90, R93, R94, R97, R98: SETPOINT_WORD_REPEAT with no word being sent, and SETPOINT_WORD_END with a word waiting, start a word
with the current setpoint and the following error at it. One above FOLLOW_LIMIT with the drive asserted raises FOLLOWING_ERROR, which halts
the shuttle. A home check passes at a word in position with the home sensor on; LOWERING in position drops LIFT; RESUME_WAIT offers RESUME.
That a word which offers RESUME has the drive asserted is read from the rules (assumption 45). That a halt ends the home check with its
timer is the model's choice (assumption 41). -/
def Obligations.SetpointWordStarted : Prop :=
  ∀ (s : State) (i : Instr),
    (i = .setpointWordRepeat ∧ 40 ≤ s.ssv.wordAge) ∨ (i = .setpointWordEnd ∧ s.ssv.wordWaiting = true) →
    let v := WordStarted s.ssv s.pgn.setpoint
    ∃ t, exec i s = .next t
      ∧ (Follows97 s s.pgn.setpoint → WordReports { s with ssv := v } t)
      ∧ (¬Follows97 s s.pgn.setpoint → LevelsLegal s → s.ixs.state ≠ .offline →
          s.har.isPending .followingError = false → Follows [.followingError] { s with ssv := v } t
            ∧ t.har.isPending .followingError = true ∧ t.ssv.drive = false ∧ t.ssv.shuttle = .halted
            ∧ t.ssv.word = s.pgn.setpoint ∧ (s.ssv.shuttle ≠ .halted → t.ssv.homeCheck = false))

/-- R53, R58 to R60, R88, R91, R92, R47: the sensors of the shuttle and the lift. The encoder counts edge by edge and wraps; the home
capture is latched or discarded; the home edge in the creep of a homing run rebases count and profile and ramps down; the lift sensors make
UP and DOWN of the state on the way to them, and a sensor lost makes it the way again. DOWN lets ABANDONING seat its pallet, and LOWERING go
on to LOWERED. An input that already has its value changes nothing, the home edge counts as a change of the count, and is taken also while
the homing run still waits for its local origin: the model's choices (assumptions 7, 20, 22 and 40). That every shuttle state but HALTED
returns from PITCH, and that the homing run stays in RUNNING as it ramps down from its home edge, are read from the rules (assumptions 24
and 26). That a HALTED shuttle keeps its reposition target is the model's choice (assumption 44). -/
def Obligations.MotionSensors : Prop :=
  ∀ s : State,
    (∀ d : Bool, exec (.encoderEdge d) s = .next { s with
      ssv := { s.ssv with encoder := if d then s.ssv.encoder + 1 else s.ssv.encoder - 1, encoderQuiet := 0 } })
    ∧ (∀ d : Bool, exec (.homeCapture d) s
        = .next { s with ssv := { s.ssv with homeCapture := if d then some s.ssv.encoder else none } })
    ∧ (∀ on : Bool, ¬(on = true ∧ s.inputs.home = false ∧ s.ssv.homingStage = .creep) →
        exec (.homeSensorChange on) s = .next { s with inputs := { s.inputs with home := on } })
    ∧ (∀ c : BitVec 32, s.inputs.home = false → s.ssv.homingStage = .creep → s.ssv.homeCapture = some c →
        let moved : Int := (s.ssv.encoder - c).toInt - s.ssv.encoder.toInt
        exec (.homeSensorChange true) s = .next { s with
          inputs := { s.inputs with home := true }
          ssv := { s.ssv with encoder := s.ssv.encoder - c, encoderQuiet := 0, homingStage := .edgeRamp }
          pgn := { s.pgn with start := s.pgn.start + moved, setpoint := s.pgn.setpoint + moved
                              rampFrom := some (if s.pgn.begun then s.pgn.counter + 2 else 1) } })
    ∧ (s.inputs.liftUp = false → ∃ t, exec .liftUpSensorOn s = .next t ∧
        let u := { s with inputs := { s.inputs with liftUp := true } }
        (s.ssv.liftState ≠ .rising → t = u)
        ∧ (s.ssv.liftState = .rising → Leads (if s.ixs.state = .releasing
            then { u with ssv := { s.ssv with liftState := .up }, ixs := { s.ixs with state := .liftWait }
                          lpt := s.lpt.enqueue (.lifted s.ixs.index) }
            else { u with ssv := { s.ssv with liftState := .up } }) t))
    ∧ (s.inputs.liftDown = false → ∃ t, exec .liftDownSensorOn s = .next t ∧
        let u := { s with inputs := { s.inputs with liftDown := true } }
        let d := { u with ssv := { s.ssv with liftState := .down } }
        let lowered := { d with ixs := { s.ixs with step := .handover, lowerExpired := none, loweringTimer := none } }
        let done := s.isUnload = true ∨ s.ixs.ownHandover = true
          ∨ ∃ o, s.rst.outgoing = some o ∧ o.index = s.indexMade ∧ o.state = .lost
        (s.ssv.liftState ≠ .falling → t = u)
        ∧ (s.ssv.liftState = .falling →
          (s.ixs.state ≠ .abandoning → s.ixs.state ≠ .lowering → Leads d t)
          ∧ (s.ixs.state = .abandoning → s.ixs.step ≠ .abandonLift → Leads d t)
          ∧ (s.ixs.state = .abandoning → s.ixs.step = .abandonLift →
              let fx := if s.rst.status = .empty then s.fxs else Seats s
              let settled := (fx.state = .secured ∧ s.rst.status ≠ .empty) ∨ (fx.state = .open ∧ s.rst.status = .empty)
              Leads { d with
                fxs := fx
                ixs := { s.ixs with
                  state := if settled then .working else .abandoning, step := if settled then .none else .abandonSeat
                  lowerExpired := none, loweringTimer := none } } t)
          ∧ (s.ixs.state = .lowering → s.ixs.step = .liftDown → (done → LoweringEnds lowered t)
              ∧ (¬done → Leads lowered t))
          ∧ (s.ixs.state = .lowering → s.ixs.step = .handover → (done → LoweringEnds d t) ∧ (¬done → Leads d t))
          ∧ (s.ixs.state = .lowering → s.ixs.step ≠ .liftDown → s.ixs.step ≠ .handover → Leads d t)))
    ∧ (∀ up : Bool, (if up then s.inputs.liftUp else s.inputs.liftDown) = true →
        exec (.liftSensorOff up) s = .next { s with
          inputs := if up then { s.inputs with liftUp := false } else { s.inputs with liftDown := false }
          ssv := { s.ssv with liftState :=
            if s.ssv.liftState = (if up then .up else .down) then (if s.ssv.lift then .rising else .falling)
            else s.ssv.liftState } })

/-- R44, R50, R94, R96, R150, R178: MACH_CLEAR, EMERGENCY and DRIVE_FAULT. MACH_CLEAR that drops raises MACH_INTRUSION outside OFFLINE,
FORMING and WORKING, and queues STOP in the states of R50. EMERGENCY and DRIVE_FAULT that go on outside OFFLINE raise their causes: the
drive is dropped, the shuttle HALTED, and level 7 announced. -/
def Obligations.SafetyInputs : Prop :=
  ∀ s : State, LevelsLegal s →
    let Raised (i : Instr) (c : Cause) (u : State) : Prop :=
      ∃ t, exec i s = .next t ∧ (s.ixs.state = .offline → Follows [] u t)
        ∧ (s.ixs.state ≠ .offline → s.har.isPending c = false → Follows [c] u t
            ∧ t.har.isPending c = true ∧ t.ssv.drive = false ∧ t.ssv.shuttle = .halted ∧ t.har.announcedLevel = 7
            ∧ (s.ssv.shuttle ≠ .halted → t.ssv.haltedFrom = some s.ssv.shuttle)
            ∧ (s.ixs.state ∈ [.releasing, .liftWait, .moving, .resumeWait] → ∃ f ∈ t.lpt.queue, f.payload.kind = .stop))
    exec .machClearOn s = .next { s with inputs := { s.inputs with machClear := true } }
    ∧ exec .emergencyOff s = .next { s with inputs := { s.inputs with emergency := false } }
    ∧ exec .driveFaultOff s = .next { s with inputs := { s.inputs with driveFault := false } }
    ∧ (s.inputs.machClear = true →
        let u := { s with inputs := { s.inputs with machClear := false } }
        (s.ixs.state ∈ [.offline, .forming, .working] → exec .machClearDrop s = .next u)
        ∧ (s.ixs.state ∉ [.offline, .forming, .working] → ∃ t, exec .machClearDrop s = .next t
            ∧ Follows [.machIntrusion] u t ∧ t.har.isPending .machIntrusion = true
            ∧ (s.ixs.state ∈ [.releasing, .liftWait, .moving, .resumeWait] → s.har.isPending .machIntrusion = false →
                ∃ f ∈ t.lpt.queue, f.payload.kind = .stop)))
    ∧ (s.inputs.emergency = false → Raised .emergencyOn .emergency { s with inputs := { s.inputs with emergency := true } })
    ∧ (s.inputs.driveFault = false →
        Raised .driveFaultOn .driveFault { s with inputs := { s.inputs with driveFault := true } })

/-! The headlines: invariants of every step, and the encodings. -/

/-- Every state that satisfies `Inv` steps to one that does. -/
def Sys2Proof.Claims.Kept (Inv : State → Prop) : Prop := ∀ s t : State, Inv s → step s = .next t → Inv t

/-- R29, R24: every step keeps the step state the one its runs give, the fine run no longer than the coarse run and both within 255, and at
most two samples from any one member. -/
def Obligations.LineTimeKept : Prop := Kept fun s => StepFromRuns s ∧ SamplesBounded s

/-- R35, R111, R120, R137, R142, Table 6-2: every step keeps a fixture record exactly while the status is HELD, one peer record and one
slot for each member outside OFFLINE, no pallet id in two slots of the image, and the fixture's outputs, opening step and marks those of
its state. -/
def Obligations.RecordsImageAndFixtureKept : Prop :=
  Kept fun s => RecordWithHeld s ∧ OneRecordEach s ∧ ImageDistinct s ∧ FixtureOutputs s

/-- R6, R9, R11, R43, R147: every step keeps the transmit queue in order with one frame of a kind, the repeat count below 16, every level
from its floor to 7, and no READY offered at an announced level of 4 or higher. -/
def Obligations.QueueAndLevelsKept : Prop :=
  Kept fun s => QueueOrdered s ∧ CountBelowLimit s ∧ LevelsLegal s ∧ ReadyWithdrawn s

/-- R94, R116, R148, R150, R152, R156 to R158: every step keeps OFFLINE quiet, DRIVE_ENABLE dropped while a cause of level 7 is pending,
the announced pair the one the pending causes give, and the section level and the outputs what their conditions give. -/
def Obligations.DriveAndOutputsKept : Prop :=
  Kept fun s => OfflineQuiet s ∧ DriveDropped s ∧ PairAnnounced s ∧ OutputsFollow s

/-- The state after reset satisfies every invariant that a step keeps. -/
def Obligations.ResetSatisfiesInvariants : Prop :=
  ∀ cause : ResetCause, let s := State.resetBy cause
    (StepFromRuns s ∧ SamplesBounded s) ∧ (RecordWithHeld s ∧ OneRecordEach s ∧ ImageDistinct s ∧ FixtureOutputs s)
      ∧ (QueueOrdered s ∧ CountBelowLimit s ∧ LevelsLegal s ∧ ReadyWithdrawn s)
      ∧ (OfflineQuiet s ∧ DriveDropped s ∧ PairAnnounced s ∧ OutputsFollow s)

/-- R173, R174, R177, R4, R16 to R19: every request, laid out by its kind, length, fields and check, is read back as itself whatever octets
follow it in its transaction, and these are counted; one of an item name that Table 10-1 has not is among them (assumption 21). The bits
of every frame within its ranges are received as that frame. -/
def Obligations.EncodingsReadBack : Prop :=
  (∀ (i : Instr) (os rest : List Byte), i.wellFormed = true → encodeRequest i = some os →
      decodeTransaction (os ++ rest) = i ∧ trailingOctets (os ++ rest) = rest.length)
    ∧ ∀ f : Frame, frameInRange f = true → (frameBits f).length = 91 + 9 * (payloadOctets f.payload).length
        ∧ receiveFrame (frameBits f) = some f ∧ decodeLinkBits (frameBits f) = observedCommand f
end

