-- ==== Sys2Proof/Laws/State.lean ====
section
/-! SUPPORT. What each unconditional update of the state leaves in each field: one lemma per field per update, true by rfl. -/

namespace Sys2Proof.Machine

variable (s : State)

/-! queueFrame -/

@[simp] theorem State.queueFrame_lpt (p : Payload) : (s.queueFrame p).lpt = s.lpt.enqueue p := rfl
@[simp] theorem State.queueFrame_ltu (p : Payload) : (s.queueFrame p).ltu = s.ltu := rfl
@[simp] theorem State.queueFrame_peers (p : Payload) : (s.queueFrame p).peers = s.peers := rfl
@[simp] theorem State.queueFrame_ixs (p : Payload) : (s.queueFrame p).ixs = s.ixs := rfl
@[simp] theorem State.queueFrame_pgn (p : Payload) : (s.queueFrame p).pgn = s.pgn := rfl
@[simp] theorem State.queueFrame_ssv (p : Payload) : (s.queueFrame p).ssv = s.ssv := rfl
@[simp] theorem State.queueFrame_fxs (p : Payload) : (s.queueFrame p).fxs = s.fxs := rfl
@[simp] theorem State.queueFrame_inputs (p : Payload) : (s.queueFrame p).inputs = s.inputs := rfl
@[simp] theorem State.queueFrame_sampling (p : Payload) : (s.queueFrame p).sampling = s.sampling := rfl
@[simp] theorem State.queueFrame_rst (p : Payload) : (s.queueFrame p).rst = s.rst := rfl
@[simp] theorem State.queueFrame_sim (p : Payload) : (s.queueFrame p).sim = s.sim := rfl
@[simp] theorem State.queueFrame_har (p : Payload) : (s.queueFrame p).har = s.har := rfl
@[simp] theorem State.queueFrame_pins (p : Payload) : (s.queueFrame p).pins = s.pins := rfl
@[simp] theorem State.queueFrame_cpt (p : Payload) : (s.queueFrame p).cpt = s.cpt := rfl
@[simp] theorem State.queueFrame_items (p : Payload) : (s.queueFrame p).items = s.items := rfl
@[simp] theorem State.queueFrame_freeTaken (p : Payload) : (s.queueFrame p).freeTaken = s.freeTaken := rfl
@[simp] theorem State.queueFrame_pending (p : Payload) : (s.queueFrame p).pending = s.pending := rfl

/-! withdraw -/

@[simp] theorem State.withdraw_lpt (sel : Payload → Bool) : (s.withdraw sel).lpt = s.lpt.withdraw sel := rfl
@[simp] theorem State.withdraw_ltu (sel : Payload → Bool) : (s.withdraw sel).ltu = s.ltu := rfl
@[simp] theorem State.withdraw_peers (sel : Payload → Bool) : (s.withdraw sel).peers = s.peers := rfl
@[simp] theorem State.withdraw_ixs (sel : Payload → Bool) : (s.withdraw sel).ixs = s.ixs := rfl
@[simp] theorem State.withdraw_pgn (sel : Payload → Bool) : (s.withdraw sel).pgn = s.pgn := rfl
@[simp] theorem State.withdraw_ssv (sel : Payload → Bool) : (s.withdraw sel).ssv = s.ssv := rfl
@[simp] theorem State.withdraw_fxs (sel : Payload → Bool) : (s.withdraw sel).fxs = s.fxs := rfl
@[simp] theorem State.withdraw_inputs (sel : Payload → Bool) : (s.withdraw sel).inputs = s.inputs := rfl
@[simp] theorem State.withdraw_sampling (sel : Payload → Bool) : (s.withdraw sel).sampling = s.sampling := rfl
@[simp] theorem State.withdraw_rst (sel : Payload → Bool) : (s.withdraw sel).rst = s.rst := rfl
@[simp] theorem State.withdraw_sim (sel : Payload → Bool) : (s.withdraw sel).sim = s.sim := rfl
@[simp] theorem State.withdraw_har (sel : Payload → Bool) : (s.withdraw sel).har = s.har := rfl
@[simp] theorem State.withdraw_pins (sel : Payload → Bool) : (s.withdraw sel).pins = s.pins := rfl
@[simp] theorem State.withdraw_cpt (sel : Payload → Bool) : (s.withdraw sel).cpt = s.cpt := rfl
@[simp] theorem State.withdraw_items (sel : Payload → Bool) : (s.withdraw sel).items = s.items := rfl
@[simp] theorem State.withdraw_freeTaken (sel : Payload → Bool) : (s.withdraw sel).freeTaken = s.freeTaken := rfl
@[simp] theorem State.withdraw_pending (sel : Payload → Bool) : (s.withdraw sel).pending = s.pending := rfl

/-! updatePeer -/

@[simp] theorem State.updatePeer_lpt (i : Nat) (f : Peer → Peer) : (s.updatePeer i f).lpt = s.lpt := rfl
@[simp] theorem State.updatePeer_ltu (i : Nat) (f : Peer → Peer) : (s.updatePeer i f).ltu = s.ltu := rfl
@[simp] theorem State.updatePeer_peers (i : Nat) (f : Peer → Peer) : (s.updatePeer i f).peers = updateAt f i s.peers := rfl
@[simp] theorem State.updatePeer_ixs (i : Nat) (f : Peer → Peer) : (s.updatePeer i f).ixs = s.ixs := rfl
@[simp] theorem State.updatePeer_pgn (i : Nat) (f : Peer → Peer) : (s.updatePeer i f).pgn = s.pgn := rfl
@[simp] theorem State.updatePeer_ssv (i : Nat) (f : Peer → Peer) : (s.updatePeer i f).ssv = s.ssv := rfl
@[simp] theorem State.updatePeer_fxs (i : Nat) (f : Peer → Peer) : (s.updatePeer i f).fxs = s.fxs := rfl
@[simp] theorem State.updatePeer_inputs (i : Nat) (f : Peer → Peer) : (s.updatePeer i f).inputs = s.inputs := rfl
@[simp] theorem State.updatePeer_sampling (i : Nat) (f : Peer → Peer) : (s.updatePeer i f).sampling = s.sampling := rfl
@[simp] theorem State.updatePeer_rst (i : Nat) (f : Peer → Peer) : (s.updatePeer i f).rst = s.rst := rfl
@[simp] theorem State.updatePeer_sim (i : Nat) (f : Peer → Peer) : (s.updatePeer i f).sim = s.sim := rfl
@[simp] theorem State.updatePeer_har (i : Nat) (f : Peer → Peer) : (s.updatePeer i f).har = s.har := rfl
@[simp] theorem State.updatePeer_pins (i : Nat) (f : Peer → Peer) : (s.updatePeer i f).pins = s.pins := rfl
@[simp] theorem State.updatePeer_cpt (i : Nat) (f : Peer → Peer) : (s.updatePeer i f).cpt = s.cpt := rfl
@[simp] theorem State.updatePeer_items (i : Nat) (f : Peer → Peer) : (s.updatePeer i f).items = s.items := rfl
@[simp] theorem State.updatePeer_freeTaken (i : Nat) (f : Peer → Peer) : (s.updatePeer i f).freeTaken = s.freeTaken := rfl
@[simp] theorem State.updatePeer_pending (i : Nat) (f : Peer → Peer) : (s.updatePeer i f).pending = s.pending := rfl

/-! updatePeers -/

@[simp] theorem State.updatePeers_lpt (f : Peer → Peer) : (s.updatePeers f).lpt = s.lpt := rfl
@[simp] theorem State.updatePeers_ltu (f : Peer → Peer) : (s.updatePeers f).ltu = s.ltu := rfl
@[simp] theorem State.updatePeers_peers (f : Peer → Peer) : (s.updatePeers f).peers = s.peers.map f := rfl
@[simp] theorem State.updatePeers_ixs (f : Peer → Peer) : (s.updatePeers f).ixs = s.ixs := rfl
@[simp] theorem State.updatePeers_pgn (f : Peer → Peer) : (s.updatePeers f).pgn = s.pgn := rfl
@[simp] theorem State.updatePeers_ssv (f : Peer → Peer) : (s.updatePeers f).ssv = s.ssv := rfl
@[simp] theorem State.updatePeers_fxs (f : Peer → Peer) : (s.updatePeers f).fxs = s.fxs := rfl
@[simp] theorem State.updatePeers_inputs (f : Peer → Peer) : (s.updatePeers f).inputs = s.inputs := rfl
@[simp] theorem State.updatePeers_sampling (f : Peer → Peer) : (s.updatePeers f).sampling = s.sampling := rfl
@[simp] theorem State.updatePeers_rst (f : Peer → Peer) : (s.updatePeers f).rst = s.rst := rfl
@[simp] theorem State.updatePeers_sim (f : Peer → Peer) : (s.updatePeers f).sim = s.sim := rfl
@[simp] theorem State.updatePeers_har (f : Peer → Peer) : (s.updatePeers f).har = s.har := rfl
@[simp] theorem State.updatePeers_pins (f : Peer → Peer) : (s.updatePeers f).pins = s.pins := rfl
@[simp] theorem State.updatePeers_cpt (f : Peer → Peer) : (s.updatePeers f).cpt = s.cpt := rfl
@[simp] theorem State.updatePeers_items (f : Peer → Peer) : (s.updatePeers f).items = s.items := rfl
@[simp] theorem State.updatePeers_freeTaken (f : Peer → Peer) : (s.updatePeers f).freeTaken = s.freeTaken := rfl
@[simp] theorem State.updatePeers_pending (f : Peer → Peer) : (s.updatePeers f).pending = s.pending := rfl

/-! enter -/

@[simp] theorem State.enter_lpt (st : SeqState) : (s.enter st).lpt = s.lpt := rfl
@[simp] theorem State.enter_ltu (st : SeqState) : (s.enter st).ltu = s.ltu := rfl
@[simp] theorem State.enter_peers (st : SeqState) : (s.enter st).peers = s.peers := rfl
@[simp] theorem State.enter_ixs (st : SeqState) : (s.enter st).ixs = { s.ixs with state := st } := rfl
@[simp] theorem State.enter_pgn (st : SeqState) : (s.enter st).pgn = s.pgn := rfl
@[simp] theorem State.enter_ssv (st : SeqState) : (s.enter st).ssv = s.ssv := rfl
@[simp] theorem State.enter_fxs (st : SeqState) : (s.enter st).fxs = s.fxs := rfl
@[simp] theorem State.enter_inputs (st : SeqState) : (s.enter st).inputs = s.inputs := rfl
@[simp] theorem State.enter_sampling (st : SeqState) : (s.enter st).sampling = s.sampling := rfl
@[simp] theorem State.enter_rst (st : SeqState) : (s.enter st).rst = s.rst := rfl
@[simp] theorem State.enter_sim (st : SeqState) : (s.enter st).sim = s.sim := rfl
@[simp] theorem State.enter_har (st : SeqState) : (s.enter st).har = s.har := rfl
@[simp] theorem State.enter_pins (st : SeqState) : (s.enter st).pins = s.pins := rfl
@[simp] theorem State.enter_cpt (st : SeqState) : (s.enter st).cpt = s.cpt := rfl
@[simp] theorem State.enter_items (st : SeqState) : (s.enter st).items = s.items := rfl
@[simp] theorem State.enter_freeTaken (st : SeqState) : (s.enter st).freeTaken = s.freeTaken := rfl
@[simp] theorem State.enter_pending (st : SeqState) : (s.enter st).pending = s.pending := rfl

/-! goStep -/

@[simp] theorem State.goStep_lpt (st : IndexStep) : (s.goStep st).lpt = s.lpt := rfl
@[simp] theorem State.goStep_ltu (st : IndexStep) : (s.goStep st).ltu = s.ltu := rfl
@[simp] theorem State.goStep_peers (st : IndexStep) : (s.goStep st).peers = s.peers := rfl
@[simp] theorem State.goStep_ixs (st : IndexStep) : (s.goStep st).ixs = { s.ixs with step := st, lowerExpired := none } := rfl
@[simp] theorem State.goStep_pgn (st : IndexStep) : (s.goStep st).pgn = s.pgn := rfl
@[simp] theorem State.goStep_ssv (st : IndexStep) : (s.goStep st).ssv = s.ssv := rfl
@[simp] theorem State.goStep_fxs (st : IndexStep) : (s.goStep st).fxs = s.fxs := rfl
@[simp] theorem State.goStep_inputs (st : IndexStep) : (s.goStep st).inputs = s.inputs := rfl
@[simp] theorem State.goStep_sampling (st : IndexStep) : (s.goStep st).sampling = s.sampling := rfl
@[simp] theorem State.goStep_rst (st : IndexStep) : (s.goStep st).rst = s.rst := rfl
@[simp] theorem State.goStep_sim (st : IndexStep) : (s.goStep st).sim = s.sim := rfl
@[simp] theorem State.goStep_har (st : IndexStep) : (s.goStep st).har = s.har := rfl
@[simp] theorem State.goStep_pins (st : IndexStep) : (s.goStep st).pins = s.pins := rfl
@[simp] theorem State.goStep_cpt (st : IndexStep) : (s.goStep st).cpt = s.cpt := rfl
@[simp] theorem State.goStep_items (st : IndexStep) : (s.goStep st).items = s.items := rfl
@[simp] theorem State.goStep_freeTaken (st : IndexStep) : (s.goStep st).freeTaken = s.freeTaken := rfl
@[simp] theorem State.goStep_pending (st : IndexStep) : (s.goStep st).pending = s.pending := rfl

/-! setFixture -/

@[simp] theorem State.setFixture_lpt (x : FixtureStatus) (r : Option PalletRecord) : (s.setFixture x r).lpt = s.lpt := rfl
@[simp] theorem State.setFixture_ltu (x : FixtureStatus) (r : Option PalletRecord) : (s.setFixture x r).ltu = s.ltu := rfl
@[simp] theorem State.setFixture_peers (x : FixtureStatus) (r : Option PalletRecord) : (s.setFixture x r).peers = s.peers := rfl
@[simp] theorem State.setFixture_ixs (x : FixtureStatus) (r : Option PalletRecord) : (s.setFixture x r).ixs = s.ixs := rfl
@[simp] theorem State.setFixture_pgn (x : FixtureStatus) (r : Option PalletRecord) : (s.setFixture x r).pgn = s.pgn := rfl
@[simp] theorem State.setFixture_ssv (x : FixtureStatus) (r : Option PalletRecord) : (s.setFixture x r).ssv = s.ssv := rfl
@[simp] theorem State.setFixture_fxs (x : FixtureStatus) (r : Option PalletRecord) : (s.setFixture x r).fxs = s.fxs := rfl
@[simp] theorem State.setFixture_inputs (x : FixtureStatus) (r : Option PalletRecord) : (s.setFixture x r).inputs = s.inputs := rfl
@[simp] theorem State.setFixture_sampling (x : FixtureStatus) (r : Option PalletRecord) : (s.setFixture x r).sampling = s.sampling := rfl
@[simp] theorem State.setFixture_rst (x : FixtureStatus) (r : Option PalletRecord) : (s.setFixture x r).rst = { s.rst with status := x, record := r } := rfl
@[simp] theorem State.setFixture_sim (x : FixtureStatus) (r : Option PalletRecord) : (s.setFixture x r).sim = s.sim := rfl
@[simp] theorem State.setFixture_har (x : FixtureStatus) (r : Option PalletRecord) : (s.setFixture x r).har = s.har := rfl
@[simp] theorem State.setFixture_pins (x : FixtureStatus) (r : Option PalletRecord) : (s.setFixture x r).pins = s.pins := rfl
@[simp] theorem State.setFixture_cpt (x : FixtureStatus) (r : Option PalletRecord) : (s.setFixture x r).cpt = s.cpt := rfl
@[simp] theorem State.setFixture_items (x : FixtureStatus) (r : Option PalletRecord) : (s.setFixture x r).items = s.items := rfl
@[simp] theorem State.setFixture_freeTaken (x : FixtureStatus) (r : Option PalletRecord) : (s.setFixture x r).freeTaken = s.freeTaken := rfl
@[simp] theorem State.setFixture_pending (x : FixtureStatus) (r : Option PalletRecord) : (s.setFixture x r).pending = s.pending := rfl

/-! respond -/

@[simp] theorem State.respond_lpt (n : Nat) (k : Byte) (x : Status) (f : List Byte) : (s.respond n k x f).lpt = s.lpt := rfl
@[simp] theorem State.respond_ltu (n : Nat) (k : Byte) (x : Status) (f : List Byte) : (s.respond n k x f).ltu = s.ltu := rfl
@[simp] theorem State.respond_peers (n : Nat) (k : Byte) (x : Status) (f : List Byte) : (s.respond n k x f).peers = s.peers := rfl
@[simp] theorem State.respond_ixs (n : Nat) (k : Byte) (x : Status) (f : List Byte) : (s.respond n k x f).ixs = s.ixs := rfl
@[simp] theorem State.respond_pgn (n : Nat) (k : Byte) (x : Status) (f : List Byte) : (s.respond n k x f).pgn = s.pgn := rfl
@[simp] theorem State.respond_ssv (n : Nat) (k : Byte) (x : Status) (f : List Byte) : (s.respond n k x f).ssv = s.ssv := rfl
@[simp] theorem State.respond_fxs (n : Nat) (k : Byte) (x : Status) (f : List Byte) : (s.respond n k x f).fxs = s.fxs := rfl
@[simp] theorem State.respond_inputs (n : Nat) (k : Byte) (x : Status) (f : List Byte) : (s.respond n k x f).inputs = s.inputs := rfl
@[simp] theorem State.respond_sampling (n : Nat) (k : Byte) (x : Status) (f : List Byte) : (s.respond n k x f).sampling = s.sampling := rfl
@[simp] theorem State.respond_rst (n : Nat) (k : Byte) (x : Status) (f : List Byte) : (s.respond n k x f).rst = s.rst := rfl
@[simp] theorem State.respond_sim (n : Nat) (k : Byte) (x : Status) (f : List Byte) : (s.respond n k x f).sim = s.sim := rfl
@[simp] theorem State.respond_har (n : Nat) (k : Byte) (x : Status) (f : List Byte) : (s.respond n k x f).har = s.har := rfl
@[simp] theorem State.respond_pins (n : Nat) (k : Byte) (x : Status) (f : List Byte) : (s.respond n k x f).pins = s.pins := rfl
@[simp] theorem State.respond_cpt (n : Nat) (k : Byte) (x : Status) (f : List Byte) : (s.respond n k x f).cpt = { s.cpt with response := some ⟨k, x, f⟩, responseRead := false, shifted := shiftOut s.cpt.response (n + s.cpt.trailing) } := rfl
@[simp] theorem State.respond_items (n : Nat) (k : Byte) (x : Status) (f : List Byte) : (s.respond n k x f).items = s.items := rfl
@[simp] theorem State.respond_freeTaken (n : Nat) (k : Byte) (x : Status) (f : List Byte) : (s.respond n k x f).freeTaken = s.freeTaken := rfl
@[simp] theorem State.respond_pending (n : Nat) (k : Byte) (x : Status) (f : List Byte) : (s.respond n k x f).pending = s.pending := rfl

/-! refuse -/

@[simp] theorem State.refuse_lpt (n : Nat) (k : Byte) (x : Status) : (s.refuse n k x).lpt = s.lpt := rfl
@[simp] theorem State.refuse_ltu (n : Nat) (k : Byte) (x : Status) : (s.refuse n k x).ltu = s.ltu := rfl
@[simp] theorem State.refuse_peers (n : Nat) (k : Byte) (x : Status) : (s.refuse n k x).peers = s.peers := rfl
@[simp] theorem State.refuse_ixs (n : Nat) (k : Byte) (x : Status) : (s.refuse n k x).ixs = s.ixs := rfl
@[simp] theorem State.refuse_pgn (n : Nat) (k : Byte) (x : Status) : (s.refuse n k x).pgn = s.pgn := rfl
@[simp] theorem State.refuse_ssv (n : Nat) (k : Byte) (x : Status) : (s.refuse n k x).ssv = s.ssv := rfl
@[simp] theorem State.refuse_fxs (n : Nat) (k : Byte) (x : Status) : (s.refuse n k x).fxs = s.fxs := rfl
@[simp] theorem State.refuse_inputs (n : Nat) (k : Byte) (x : Status) : (s.refuse n k x).inputs = s.inputs := rfl
@[simp] theorem State.refuse_sampling (n : Nat) (k : Byte) (x : Status) : (s.refuse n k x).sampling = s.sampling := rfl
@[simp] theorem State.refuse_rst (n : Nat) (k : Byte) (x : Status) : (s.refuse n k x).rst = s.rst := rfl
@[simp] theorem State.refuse_sim (n : Nat) (k : Byte) (x : Status) : (s.refuse n k x).sim = s.sim := rfl
@[simp] theorem State.refuse_har (n : Nat) (k : Byte) (x : Status) : (s.refuse n k x).har = s.har := rfl
@[simp] theorem State.refuse_pins (n : Nat) (k : Byte) (x : Status) : (s.refuse n k x).pins = s.pins := rfl
@[simp] theorem State.refuse_cpt (n : Nat) (k : Byte) (x : Status) : (s.refuse n k x).cpt = { s.cpt with response := some ⟨k, x, []⟩, responseRead := false, shifted := shiftOut s.cpt.response (n + s.cpt.trailing) } := rfl
@[simp] theorem State.refuse_items (n : Nat) (k : Byte) (x : Status) : (s.refuse n k x).items = s.items := rfl
@[simp] theorem State.refuse_freeTaken (n : Nat) (k : Byte) (x : Status) : (s.refuse n k x).freeTaken = s.freeTaken := rfl
@[simp] theorem State.refuse_pending (n : Nat) (k : Byte) (x : Status) : (s.refuse n k x).pending = s.pending := rfl

/-! queueStop -/

@[simp] theorem State.queueStop_lpt (n : Nat) : (s.queueStop n).lpt = s.lpt.enqueue (s.stopPayload n) := rfl
@[simp] theorem State.queueStop_ltu (n : Nat) : (s.queueStop n).ltu = s.ltu := rfl
@[simp] theorem State.queueStop_peers (n : Nat) : (s.queueStop n).peers = s.peers := rfl
@[simp] theorem State.queueStop_ixs (n : Nat) : (s.queueStop n).ixs = s.ixs := rfl
@[simp] theorem State.queueStop_pgn (n : Nat) : (s.queueStop n).pgn = s.pgn := rfl
@[simp] theorem State.queueStop_ssv (n : Nat) : (s.queueStop n).ssv = s.ssv := rfl
@[simp] theorem State.queueStop_fxs (n : Nat) : (s.queueStop n).fxs = s.fxs := rfl
@[simp] theorem State.queueStop_inputs (n : Nat) : (s.queueStop n).inputs = s.inputs := rfl
@[simp] theorem State.queueStop_sampling (n : Nat) : (s.queueStop n).sampling = s.sampling := rfl
@[simp] theorem State.queueStop_rst (n : Nat) : (s.queueStop n).rst = s.rst := rfl
@[simp] theorem State.queueStop_sim (n : Nat) : (s.queueStop n).sim = s.sim := rfl
@[simp] theorem State.queueStop_har (n : Nat) : (s.queueStop n).har = s.har := rfl
@[simp] theorem State.queueStop_pins (n : Nat) : (s.queueStop n).pins = s.pins := rfl
@[simp] theorem State.queueStop_cpt (n : Nat) : (s.queueStop n).cpt = s.cpt := rfl
@[simp] theorem State.queueStop_items (n : Nat) : (s.queueStop n).items = s.items := rfl
@[simp] theorem State.queueStop_freeTaken (n : Nat) : (s.queueStop n).freeTaken = s.freeTaken := rfl
@[simp] theorem State.queueStop_pending (n : Nat) : (s.queueStop n).pending = s.pending := rfl

/-! reposition -/

@[simp] theorem State.reposition_lpt (u : RepositionUse) (x : Int) : (s.reposition u x).lpt = s.lpt := rfl
@[simp] theorem State.reposition_ltu (u : RepositionUse) (x : Int) : (s.reposition u x).ltu = s.ltu := rfl
@[simp] theorem State.reposition_peers (u : RepositionUse) (x : Int) : (s.reposition u x).peers = s.peers := rfl
@[simp] theorem State.reposition_ixs (u : RepositionUse) (x : Int) : (s.reposition u x).ixs = s.ixs := rfl
@[simp] theorem State.reposition_pgn (u : RepositionUse) (x : Int) : (s.reposition u x).pgn = s.pgn.prepareMove .reposition s.encoderCount x s.items.homingSpeed s.items.accel s.ltu.lineTime := rfl
@[simp] theorem State.reposition_ssv (u : RepositionUse) (x : Int) : (s.reposition u x).ssv = { s.ssv with repositionTarget := some x, repositionUse := some u } := rfl
@[simp] theorem State.reposition_fxs (u : RepositionUse) (x : Int) : (s.reposition u x).fxs = s.fxs := rfl
@[simp] theorem State.reposition_inputs (u : RepositionUse) (x : Int) : (s.reposition u x).inputs = s.inputs := rfl
@[simp] theorem State.reposition_sampling (u : RepositionUse) (x : Int) : (s.reposition u x).sampling = s.sampling := rfl
@[simp] theorem State.reposition_rst (u : RepositionUse) (x : Int) : (s.reposition u x).rst = s.rst := rfl
@[simp] theorem State.reposition_sim (u : RepositionUse) (x : Int) : (s.reposition u x).sim = s.sim := rfl
@[simp] theorem State.reposition_har (u : RepositionUse) (x : Int) : (s.reposition u x).har = s.har := rfl
@[simp] theorem State.reposition_pins (u : RepositionUse) (x : Int) : (s.reposition u x).pins = s.pins := rfl
@[simp] theorem State.reposition_cpt (u : RepositionUse) (x : Int) : (s.reposition u x).cpt = s.cpt := rfl
@[simp] theorem State.reposition_items (u : RepositionUse) (x : Int) : (s.reposition u x).items = s.items := rfl
@[simp] theorem State.reposition_freeTaken (u : RepositionUse) (x : Int) : (s.reposition u x).freeTaken = s.freeTaken := rfl
@[simp] theorem State.reposition_pending (u : RepositionUse) (x : Int) : (s.reposition u x).pending = s.pending := rfl

/-! returnFrom -/

@[simp] theorem State.returnFrom_lpt (x : Int) : (s.returnFrom x).lpt = s.lpt := rfl
@[simp] theorem State.returnFrom_ltu (x : Int) : (s.returnFrom x).ltu = s.ltu := rfl
@[simp] theorem State.returnFrom_peers (x : Int) : (s.returnFrom x).peers = s.peers := rfl
@[simp] theorem State.returnFrom_ixs (x : Int) : (s.returnFrom x).ixs = s.ixs := rfl
@[simp] theorem State.returnFrom_pgn (x : Int) : (s.returnFrom x).pgn = s.pgn.prepareMove .ret x 0 s.items.vmax s.items.accel s.ltu.lineTime := rfl
@[simp] theorem State.returnFrom_ssv (x : Int) : (s.returnFrom x).ssv = { s.ssv with repositionTarget := none, repositionUse := none } := rfl
@[simp] theorem State.returnFrom_fxs (x : Int) : (s.returnFrom x).fxs = s.fxs := rfl
@[simp] theorem State.returnFrom_inputs (x : Int) : (s.returnFrom x).inputs = s.inputs := rfl
@[simp] theorem State.returnFrom_sampling (x : Int) : (s.returnFrom x).sampling = s.sampling := rfl
@[simp] theorem State.returnFrom_rst (x : Int) : (s.returnFrom x).rst = s.rst := rfl
@[simp] theorem State.returnFrom_sim (x : Int) : (s.returnFrom x).sim = s.sim := rfl
@[simp] theorem State.returnFrom_har (x : Int) : (s.returnFrom x).har = s.har := rfl
@[simp] theorem State.returnFrom_pins (x : Int) : (s.returnFrom x).pins = s.pins := rfl
@[simp] theorem State.returnFrom_cpt (x : Int) : (s.returnFrom x).cpt = s.cpt := rfl
@[simp] theorem State.returnFrom_items (x : Int) : (s.returnFrom x).items = s.items := rfl
@[simp] theorem State.returnFrom_freeTaken (x : Int) : (s.returnFrom x).freeTaken = s.freeTaken := rfl
@[simp] theorem State.returnFrom_pending (x : Int) : (s.returnFrom x).pending = s.pending := rfl

/-! driveOn -/

@[simp] theorem State.driveOn_lpt (st : ShuttleState) : (s.driveOn st).lpt = s.lpt := rfl
@[simp] theorem State.driveOn_ltu (st : ShuttleState) : (s.driveOn st).ltu = s.ltu := rfl
@[simp] theorem State.driveOn_peers (st : ShuttleState) : (s.driveOn st).peers = s.peers := rfl
@[simp] theorem State.driveOn_ixs (st : ShuttleState) : (s.driveOn st).ixs = s.ixs := rfl
@[simp] theorem State.driveOn_pgn (st : ShuttleState) : (s.driveOn st).pgn = s.pgn := rfl
@[simp] theorem State.driveOn_ssv (st : ShuttleState) : (s.driveOn st).ssv = { s.ssv with drive := true, shuttle := st, haltedFrom := none } := rfl
@[simp] theorem State.driveOn_fxs (st : ShuttleState) : (s.driveOn st).fxs = s.fxs := rfl
@[simp] theorem State.driveOn_inputs (st : ShuttleState) : (s.driveOn st).inputs = s.inputs := rfl
@[simp] theorem State.driveOn_sampling (st : ShuttleState) : (s.driveOn st).sampling = s.sampling := rfl
@[simp] theorem State.driveOn_rst (st : ShuttleState) : (s.driveOn st).rst = s.rst := rfl
@[simp] theorem State.driveOn_sim (st : ShuttleState) : (s.driveOn st).sim = s.sim := rfl
@[simp] theorem State.driveOn_har (st : ShuttleState) : (s.driveOn st).har = s.har := rfl
@[simp] theorem State.driveOn_pins (st : ShuttleState) : (s.driveOn st).pins = s.pins := rfl
@[simp] theorem State.driveOn_cpt (st : ShuttleState) : (s.driveOn st).cpt = s.cpt := rfl
@[simp] theorem State.driveOn_items (st : ShuttleState) : (s.driveOn st).items = s.items := rfl
@[simp] theorem State.driveOn_freeTaken (st : ShuttleState) : (s.driveOn st).freeTaken = s.freeTaken := rfl
@[simp] theorem State.driveOn_pending (st : ShuttleState) : (s.driveOn st).pending = s.pending := rfl

/-! refreshPins -/

@[simp] theorem State.refreshPins_lpt : (s.refreshPins).lpt = s.lpt := rfl
@[simp] theorem State.refreshPins_ltu : (s.refreshPins).ltu = s.ltu := rfl
@[simp] theorem State.refreshPins_peers : (s.refreshPins).peers = s.peers := rfl
@[simp] theorem State.refreshPins_ixs : (s.refreshPins).ixs = s.ixs := rfl
@[simp] theorem State.refreshPins_pgn : (s.refreshPins).pgn = s.pgn := rfl
@[simp] theorem State.refreshPins_ssv : (s.refreshPins).ssv = s.ssv := rfl
@[simp] theorem State.refreshPins_fxs : (s.refreshPins).fxs = s.fxs := rfl
@[simp] theorem State.refreshPins_inputs : (s.refreshPins).inputs = s.inputs := rfl
@[simp] theorem State.refreshPins_sampling : (s.refreshPins).sampling = s.sampling := rfl
@[simp] theorem State.refreshPins_rst : (s.refreshPins).rst = s.rst := rfl
@[simp] theorem State.refreshPins_sim : (s.refreshPins).sim = s.sim := rfl
@[simp] theorem State.refreshPins_har : (s.refreshPins).har = { s.har with sectionLevel := s.sectionLevelNow } := rfl
@[simp] theorem State.refreshPins_cpt : (s.refreshPins).cpt = s.cpt := rfl
@[simp] theorem State.refreshPins_items : (s.refreshPins).items = s.items := rfl
@[simp] theorem State.refreshPins_freeTaken : (s.refreshPins).freeTaken = s.freeTaken := rfl
@[simp] theorem State.refreshPins_pending : (s.refreshPins).pending = s.pending := rfl

/-! hear -/

@[simp] theorem State.hear_lpt (m : Nat) : (s.hear m).lpt = s.lpt := rfl
@[simp] theorem State.hear_ltu (m : Nat) : (s.hear m).ltu = s.ltu := rfl
@[simp] theorem State.hear_peers (m : Nat) : (s.hear m).peers = updateAt (fun p => { p with lastHeard := some s.ltu.lineTime, silence := some 0 }) m s.peers := rfl
@[simp] theorem State.hear_ixs (m : Nat) : (s.hear m).ixs = s.ixs := rfl
@[simp] theorem State.hear_pgn (m : Nat) : (s.hear m).pgn = s.pgn := rfl
@[simp] theorem State.hear_ssv (m : Nat) : (s.hear m).ssv = s.ssv := rfl
@[simp] theorem State.hear_fxs (m : Nat) : (s.hear m).fxs = s.fxs := rfl
@[simp] theorem State.hear_inputs (m : Nat) : (s.hear m).inputs = s.inputs := rfl
@[simp] theorem State.hear_sampling (m : Nat) : (s.hear m).sampling = s.sampling := rfl
@[simp] theorem State.hear_rst (m : Nat) : (s.hear m).rst = s.rst := rfl
@[simp] theorem State.hear_sim (m : Nat) : (s.hear m).sim = s.sim := rfl
@[simp] theorem State.hear_har (m : Nat) : (s.hear m).har = s.har := rfl
@[simp] theorem State.hear_pins (m : Nat) : (s.hear m).pins = s.pins := rfl
@[simp] theorem State.hear_cpt (m : Nat) : (s.hear m).cpt = s.cpt := rfl
@[simp] theorem State.hear_items (m : Nat) : (s.hear m).items = s.items := rfl
@[simp] theorem State.hear_freeTaken (m : Nat) : (s.hear m).freeTaken = s.freeTaken := rfl
@[simp] theorem State.hear_pending (m : Nat) : (s.hear m).pending = s.pending := rfl

end Sys2Proof.Machine
end

