-- ==== Sys2Proof/Laws/Hold.lean ====
section
/-! SUPPORT. What the operations of the Hold Arbiter leave unchanged, and each of them by cases: provers cite these lemmas and
need not unfold the operations. -/

namespace Sys2Proof.Machine

/-- The fields that no operation of the Hold Arbiter changes are the same. -/
structure HoldFrame (s t : State) : Prop where
  ltu : t.ltu = s.ltu
  peers : t.peers = s.peers
  fxs : t.fxs = s.fxs
  inputs : t.inputs = s.inputs
  sampling : t.sampling = s.sampling
  rst : t.rst = s.rst
  sim : t.sim = s.sim
  cpt : t.cpt = s.cpt
  items : t.items = s.items
  freeTaken : t.freeTaken = s.freeTaken
  pending : t.pending = s.pending
  ixs : t.ixs = s.ixs ∨ (s.ixs.state = .ready ∧ t.ixs = { s.ixs with state := .working })

theorem HoldFrame.rfl' (s : State) : HoldFrame s s := ⟨rfl, rfl, rfl, rfl, rfl, rfl, rfl, rfl, rfl, rfl, rfl, .inl rfl⟩

theorem HoldFrame.trans {s t u : State} (h : HoldFrame s t) (k : HoldFrame t u) : HoldFrame s u := by
  refine ⟨k.ltu.trans h.ltu, k.peers.trans h.peers, k.fxs.trans h.fxs, k.inputs.trans h.inputs,
    k.sampling.trans h.sampling, k.rst.trans h.rst, k.sim.trans h.sim, k.cpt.trans h.cpt, k.items.trans h.items,
    k.freeTaken.trans h.freeTaken,
    k.pending.trans h.pending, ?_⟩
  rcases h.ixs with h1 | ⟨h0, h1⟩ <;> rcases k.ixs with k1 | ⟨k0, k1⟩
  · exact .inl (k1.trans h1)
  · rw [h1] at k0 k1; exact .inr ⟨k0, k1⟩
  · rw [h1] at k1; exact .inr ⟨h0, k1⟩
  · rw [h1] at k0; cases k0

/-- What can be told of an operation that changes nothing but the transmit queue, the causes, the outputs of the drive and the
shuttle's part of the profile. -/
theorem HoldFrame.of_ixs {s t : State} (h1 : t.ltu = s.ltu) (h2 : t.peers = s.peers) (h3 : t.fxs = s.fxs)
    (h4 : t.inputs = s.inputs) (hs : t.sampling = s.sampling) (h5 : t.rst = s.rst) (h6 : t.sim = s.sim) (h7 : t.cpt = s.cpt)
    (h8 : t.items = s.items) (h9 : t.freeTaken = s.freeTaken) (h10 : t.pending = s.pending) (h11 : t.ixs = s.ixs) :
    HoldFrame s t := ⟨h1, h2, h3, h4, hs, h5, h6, h7, h8, h9, h10, .inl h11⟩

theorem leaveReady_frame (s : State) : HoldFrame s s.leaveReady := by
  unfold State.leaveReady
  dsimp only
  split
  · rename_i h; exact ⟨rfl, rfl, rfl, rfl, rfl, rfl, rfl, rfl, rfl, rfl, rfl, .inr ⟨h, rfl⟩⟩
  · exact .of_ixs rfl rfl rfl rfl rfl rfl rfl rfl rfl rfl rfl rfl

/-- R43: after `leaveReady` the station is not in READY. -/
theorem leaveReady_state (s : State) : s.leaveReady.ixs.state ≠ .ready := by
  unfold State.leaveReady
  dsimp only
  split
  · simp
  · assumption

theorem renewJoin_frame (s : State) : HoldFrame s s.renewJoin := by
  unfold State.renewJoin
  split <;> exact .of_ixs rfl rfl rfl rfl rfl rfl rfl rfl rfl rfl rfl rfl

/-- The announced pair formed anew, its HOLD queued, a JOIN renewed. -/
def State.announced (s : State) : State :=
  ({ s with har := { s.har with announcedLevel := s.har.pair.1, announcedCause := s.har.pair.2 } }.queueFrame
    (.hold s.har.pair.1 s.har.pair.2)).renewJoin

/-- R152, R153: `announce` by cases. -/
theorem announce_cases (s : State) :
    (s.har.pair = (s.har.announcedLevel, s.har.announcedCause) ∧ s.announce = s)
      ∨ (s.har.pair ≠ (s.har.announcedLevel, s.har.announcedCause) ∧ s.har.pair.1 ≤ 3 ∧ s.announce = s.announced)
      ∨ (s.har.pair ≠ (s.har.announcedLevel, s.har.announcedCause) ∧ 4 ≤ s.har.pair.1
          ∧ s.announce = s.announced.leaveReady) := by
  unfold State.announce State.announced
  by_cases h : s.har.pair = (s.har.announcedLevel, s.har.announcedCause)
  · left; simp [h]
  · right
    by_cases k : 4 ≤ s.har.pair.1
    · right; exact ⟨h, k, by simp [h, k]⟩
    · left; exact ⟨h, by omega, by simp [h, k]⟩

theorem announced_frame (s : State) : HoldFrame s s.announced := by
  refine HoldFrame.trans ?_ (renewJoin_frame _)
  exact .of_ixs rfl rfl rfl rfl rfl rfl rfl rfl rfl rfl rfl rfl

theorem announce_frame (s : State) : HoldFrame s s.announce := by
  rcases announce_cases s with ⟨_, h⟩ | ⟨_, _, h⟩ | ⟨_, _, h⟩ <;> rw [h]
  · exact .rfl' s
  · exact announced_frame s
  · exact (announced_frame s).trans (leaveReady_frame _)

theorem queueStop_frame (s : State) (n : Nat) : HoldFrame s (s.queueStop n) :=
  .of_ixs rfl rfl rfl rfl rfl rfl rfl rfl rfl rfl rfl rfl

theorem dropDrive_frame (s : State) : HoldFrame s s.dropDrive := by
  unfold State.dropDrive
  split <;> exact .of_ixs rfl rfl rfl rfl rfl rfl rfl rfl rfl rfl rfl rfl

/-- R94: after `dropDrive` the drive is dropped and the shuttle HALTED. -/
theorem dropDrive_ssv (s : State) : s.dropDrive.ssv.drive = false ∧ s.dropDrive.ssv.shuttle = .halted := by
  unfold State.dropDrive
  split
  · rename_i h; exact ⟨rfl, h⟩
  · exact ⟨rfl, rfl⟩

/-- R149, R148: a raising in OFFLINE, of a cause of level 0 or of a pending cause changes nothing. -/
theorem raise_ignored (s : State) (c : Cause) (h : s.offline ∨ s.har.level c = 0 ∨ s.har.isPending c) :
    s.raise c = s := by
  unfold State.raise; simp [h]

/-- R149: a raising that is taken, by level. -/
theorem raise_taken (s : State) (c : Cause) (h : ¬(s.offline ∨ s.har.level c = 0 ∨ s.har.isPending c)) :
    s.raise c =
      let t := { s with har := s.har.setPending c true }.announce
      let t := if 6 ≤ s.har.level c ∧ t.ixs.state.queuesStop then t.queueStop c.number else t
      if s.har.level c = 7 then t.dropDrive else t := by
  unfold State.raise; rw [if_neg h]

theorem setPending_frame (s : State) (c : Cause) (b : Bool) : HoldFrame s { s with har := s.har.setPending c b } :=
  .of_ixs rfl rfl rfl rfl rfl rfl rfl rfl rfl rfl rfl rfl

theorem raise_frame (s : State) (c : Cause) : HoldFrame s (s.raise c) := by
  by_cases h : s.offline ∨ s.har.level c = 0 ∨ s.har.isPending c
  · rw [raise_ignored s c h]; exact .rfl' s
  · rw [raise_taken s c h]
    dsimp only
    have a := (setPending_frame s c true).trans (announce_frame _)
    split
    · split
      · exact (a.trans (queueStop_frame _ _)).trans (dropDrive_frame _)
      · exact a.trans (dropDrive_frame _)
    · split
      · exact a.trans (queueStop_frame _ _)
      · exact a

theorem driveOn_frame (s : State) (st : ShuttleState) : HoldFrame s (s.driveOn st) :=
  .of_ixs rfl rfl rfl rfl rfl rfl rfl rfl rfl rfl rfl rfl

theorem reposition_frame (s : State) (u : RepositionUse) (x : Int) : HoldFrame s (s.reposition u x) :=
  .of_ixs rfl rfl rfl rfl rfl rfl rfl rfl rfl rfl rfl rfl

theorem returnFrom_frame (s : State) (x : Int) : HoldFrame s (s.returnFrom x) :=
  .of_ixs rfl rfl rfl rfl rfl rfl rfl rfl rfl rfl rfl rfl

theorem withSsv_frame (s : State) (v : Ssv) : HoldFrame s { s with ssv := v } :=
  .of_ixs rfl rfl rfl rfl rfl rfl rfl rfl rfl rfl rfl rfl

/-- Table 5-4: the restart by cases: nothing; the halted shuttle's own fields; or the drive on and one move. -/
theorem restart_cases (s : State) :
    s.restart = s ∨ (∃ v, s.restart = { s with ssv := v } ∧ v.drive = s.ssv.drive)
      ∨ (∃ st u x, s.restart = (s.driveOn st).reposition u x)
      ∨ ∃ st x, s.restart = (s.driveOn st).returnFrom x := by
  unfold State.restart
  by_cases h : s.ssv.shuttle = .halted
  · rw [if_neg (by simpa using h)]
    generalize s.ssv.haltedFrom = hf
    rcases hf with _ | hf
    · exact .inl rfl
    · cases hf
      case atHome => exact .inr (.inr (.inl ⟨_, _, _, rfl⟩))
      case returning =>
        dsimp only
        split
        · exact .inr (.inr (.inr ⟨_, _, rfl⟩))
        · exact .inr (.inr (.inl ⟨_, _, _, rfl⟩))
      case atEnd => exact .inr (.inr (.inl ⟨_, _, _, rfl⟩))
      case repositioning =>
        dsimp only
        split
        · exact .inr (.inr (.inl ⟨_, _, _, rfl⟩))
        · exact .inr (.inl ⟨_, rfl, rfl⟩)
      case unhomed => exact .inr (.inl ⟨_, rfl, rfl⟩)
      case homing => exact .inr (.inl ⟨_, rfl, rfl⟩)
      all_goals exact .inl rfl
  · rw [if_pos h]; exact .inl rfl

theorem restart_frame (s : State) : HoldFrame s s.restart := by
  rcases restart_cases s with h | ⟨v, h, -⟩ | ⟨st, u, x, h⟩ | ⟨st, x, h⟩ <;> rw [h]
  · exact .rfl' s
  · exact withSsv_frame s v
  · exact (driveOn_frame s st).trans (reposition_frame _ u x)
  · exact (driveOn_frame s st).trans (returnFrom_frame _ x)

/-- Table 5-4: a shuttle that is not HALTED is not restarted. -/
theorem restart_not_halted (s : State) (h : s.ssv.shuttle ≠ .halted) : s.restart = s := by
  unfold State.restart; simp [h]

/-- R149: a cause that is not pending stays so. -/
theorem unpend_idle (s : State) (c : Cause) (h : s.har.isPending c = false) : s.unpend c = s := by
  unfold State.unpend; simp [h]

theorem unpend_frame (s : State) (c : Cause) : HoldFrame s (s.unpend c) := by
  unfold State.unpend
  split
  · have a := (setPending_frame s c false).trans (announce_frame _)
    dsimp only
    split
    · exact a.trans (restart_frame _)
    · exact a
  · exact .rfl' s

theorem refreshCause_frame (s : State) (c : Cause) : HoldFrame s (s.refreshCause c) := by
  unfold State.refreshCause
  split
  · exact raise_frame s c
  · exact unpend_frame s c

theorem refreshFold_frame (l : List Cause) (s : State) : HoldFrame s (l.foldl State.refreshCause s) := by
  induction l generalizing s with
  | nil => exact .rfl' s
  | cons c l ih => exact (refreshCause_frame s c).trans (ih _)

theorem refreshCauses_frame (s : State) : HoldFrame s s.refreshCauses := refreshFold_frame Cause.selfClearing s

theorem refreshPins_frame (s : State) : HoldFrame s s.refreshPins := .of_ixs rfl rfl rfl rfl rfl rfl rfl rfl rfl rfl rfl rfl

/-- What the end of a command leaves unchanged. -/
theorem close_frame (s : State) : HoldFrame s s.close := by
  unfold State.close
  exact (refreshCauses_frame s).trans (refreshPins_frame s.refreshCauses)

/-- R116, R156, R157, R158: after the end of a command the section level and the outputs are what their conditions give. -/
theorem close_pins (s : State) :
    s.close.har.sectionLevel = s.close.sectionLevelNow ∧ s.close.pins.machPermit = s.close.machPermitNow
      ∧ s.close.pins.sectionStop = s.close.sectionStopNow ∧ s.close.pins.attn = s.close.attnNow := by
  unfold State.close
  generalize s.refreshCauses = u
  exact ⟨rfl, rfl, rfl, rfl⟩

end Sys2Proof.Machine
end

