-- ==== Sys2Proof/Laws/Causes.lean ====
section
/-! SUPPORT. Which causes the operations of the Hold Arbiter make pending and which they leave: levels never change, and the end
of a command changes self-clearing causes only. -/

namespace Sys2Proof.Machine

/-- Table 9-1: the number of a cause is its place in the list of entries. -/
theorem Cause.number_inj {c d : Cause} (h : c.number = d.number) : c = d := by
  revert h; cases c <;> cases d <;> decide

theorem Cause.number_lt (c : Cause) : c.number < Cause.all.length := by cases c <;> decide

/-- R147, R149: setting a cause pending or not leaves every level. -/
@[simp] theorem setPending_level (h : Har) (c d : Cause) (b : Bool) : (h.setPending c b).level d = h.level d := by
  unfold Har.setPending Har.level
  simp only [List.getD_eq_getElem?_getD, List.getElem?_set]
  by_cases e : c.number = d.number
  · rw [if_pos e]
    by_cases l : c.number < h.causes.length
    · rw [if_pos l, Option.getD_some]; rw [e]
    · rw [if_neg l, ← e, List.getElem?_eq_none (by omega)]
  · rw [if_neg e]

/-- Setting a cause leaves the pending flag of every other cause. -/
theorem setPending_other (h : Har) {c d : Cause} (e : d ≠ c) (b : Bool) :
    (h.setPending c b).isPending d = h.isPending d := by
  unfold Har.setPending Har.isPending
  simp only [List.getD_eq_getElem?_getD, List.getElem?_set]
  rw [if_neg fun k => e (Cause.number_inj k.symm)]

/-- The flag that is set is set. -/
theorem setPending_self (h : Har) (c : Cause) (b : Bool) (l : h.causes.length = Cause.all.length) :
    (h.setPending c b).isPending c = b := by
  unfold Har.setPending Har.isPending
  simp only [List.getD_eq_getElem?_getD, List.getElem?_set, if_true]
  rw [if_pos (by rw [l]; exact c.number_lt)]; rfl

@[simp] theorem setPending_length (h : Har) (c : Cause) (b : Bool) :
    (h.setPending c b).causes.length = h.causes.length := by simp [Har.setPending]

@[simp] theorem setPending_mask (h : Har) (c : Cause) (b : Bool) : (h.setPending c b).attnMask = h.attnMask := rfl

@[simp] theorem leaveReady_har (s : State) : s.leaveReady.har = s.har := by
  unfold State.leaveReady; dsimp only; split <;> rfl

@[simp] theorem renewJoin_har (s : State) : s.renewJoin.har = s.har := by
  unfold State.renewJoin; split <;> rfl

/-- R152: forming the pair anew leaves every cause. -/
@[simp] theorem announce_causes (s : State) : s.announce.har.causes = s.har.causes := by
  rcases announce_cases s with ⟨_, h⟩ | ⟨_, _, h⟩ | ⟨_, _, h⟩ <;> rw [h]
  · simp [State.announced]
  · simp [State.announced]

/-- R152: after `announce` the pair announced is the pair that the pending causes give. -/
theorem announce_pair (s : State) :
    (s.announce.har.announcedLevel, s.announce.har.announcedCause) = s.har.pair := by
  rcases announce_cases s with ⟨e, h⟩ | ⟨_, _, h⟩ | ⟨_, _, h⟩ <;> rw [h]
  · exact e.symm
  · simp [State.announced]
  · simp [State.announced]

@[simp] theorem dropDrive_har (s : State) : s.dropDrive.har = s.har := by unfold State.dropDrive; split <;> rfl

@[simp] theorem restart_har (s : State) : s.restart.har = s.har := by
  rcases restart_cases s with h | ⟨v, h, -⟩ | ⟨st, u, x, h⟩ | ⟨st, x, h⟩ <;> rw [h] <;> rfl

/-- R149: the causes after a raising that is taken. -/
theorem raise_causes (s : State) (c : Cause) (h : ¬(s.offline ∨ s.har.level c = 0 ∨ s.har.isPending c)) :
    (s.raise c).har.causes = (s.har.setPending c true).causes := by
  rw [raise_taken s c h]
  dsimp only
  split <;> split <;> simp [State.queueStop]

/-- The causes after `unpend`. -/
theorem unpend_causes (s : State) (c : Cause) :
    (s.unpend c).har.causes = if s.har.isPending c then (s.har.setPending c false).causes else s.har.causes := by
  unfold State.unpend
  split
  · dsimp only; split <;> simp
  · rfl

/-- Two states agree on every level, on the number of causes, and on the pending flags of the causes that `keep` selects. -/
structure SameCauses (keep : Cause → Prop) (h k : Har) : Prop where
  length : k.causes.length = h.causes.length
  level : ∀ c, k.level c = h.level c
  pending : ∀ c, keep c → k.isPending c = h.isPending c

theorem SameCauses.rfl' (keep : Cause → Prop) (h : Har) : SameCauses keep h h := ⟨rfl, fun _ => rfl, fun _ _ => rfl⟩

theorem SameCauses.trans {keep : Cause → Prop} {h k l : Har} (a : SameCauses keep h k) (b : SameCauses keep k l) :
    SameCauses keep h l :=
  ⟨b.length.trans a.length, fun c => (b.level c).trans (a.level c),
    fun c e => (b.pending c e).trans (a.pending c e)⟩

theorem SameCauses.of_causes {keep : Cause → Prop} {h k : Har} (e : k.causes = h.causes) : SameCauses keep h k :=
  ⟨by rw [e], fun c => by simp [Har.level, e], fun c _ => by simp [Har.isPending, e]⟩

theorem SameCauses.of_set {keep : Cause → Prop} {h k : Har} (c : Cause) (b : Bool) (n : ¬keep c)
    (e : k.causes = (h.setPending c b).causes) : SameCauses keep h k :=
  (⟨setPending_length h c b, fun d => setPending_level h c d b, fun d kd =>
    setPending_other h (fun x : d = c => n (x ▸ kd)) b⟩ : SameCauses keep h (h.setPending c b)).trans (.of_causes e)

/-- A raising changes the pending flag of its own cause only, and no level. -/
theorem raise_same (s : State) (c : Cause) : SameCauses (· ≠ c) s.har (s.raise c).har := by
  by_cases h : s.offline ∨ s.har.level c = 0 ∨ s.har.isPending c
  · rw [raise_ignored s c h]; exact .rfl' _ _
  · exact .of_set c true (fun e => e rfl) (raise_causes s c h)

/-- R149: outside OFFLINE a raising of a cause of level 1 or more leaves it pending. -/
theorem raise_pending (s : State) (c : Cause) (o : s.offline = false) (l : 1 ≤ s.har.level c)
    (n : s.har.causes.length = Cause.all.length) : (s.raise c).har.isPending c = true := by
  by_cases h : s.offline ∨ s.har.level c = 0 ∨ s.har.isPending c
  · rw [raise_ignored s c h]
    rcases h with h | h | h
    · simp [o] at h
    · omega
    · exact h
  · have e := raise_causes s c h
    have := setPending_self s.har c true n
    simpa [Har.isPending, e] using this

/-- The end of being pending changes the flag of its own cause only, and no level. -/
theorem unpend_same (s : State) (c : Cause) : SameCauses (· ≠ c) s.har (s.unpend c).har := by
  have e := unpend_causes s c
  split at e
  · exact .of_set c false (fun x => x rfl) e
  · exact .of_causes e

/-- `unpend` leaves its cause not pending. -/
theorem unpend_pending (s : State) (c : Cause) (n : s.har.causes.length = Cause.all.length) :
    (s.unpend c).har.isPending c = false := by
  have e := unpend_causes s c
  split at e
  · have := setPending_self s.har c false n
    simpa [Har.isPending, e] using this
  · rename_i h; simpa [Har.isPending, e] using h

theorem refreshCause_same (s : State) (c : Cause) : SameCauses (· ≠ c) s.har (s.refreshCause c).har := by
  unfold State.refreshCause
  split
  · exact raise_same s c
  · exact unpend_same s c

theorem refreshFold_same (l : List Cause) (s : State) :
    SameCauses (· ∉ l) s.har (l.foldl State.refreshCause s).har := by
  induction l generalizing s with
  | nil => exact .rfl' _ _
  | cons c l ih =>
    have a := refreshCause_same s c
    have b := ih (s.refreshCause c)
    exact ⟨b.length.trans a.length, fun d => (b.level d).trans (a.level d), fun d h =>
      (b.pending d fun m => h (List.mem_cons_of_mem _ m)).trans
        (a.pending d fun m => h (m ▸ List.mem_cons_self))⟩

/-- R148, R149: the end of a command changes no latched cause and no level. -/
theorem close_same (s : State) : SameCauses (fun c => c.latched = true) s.har s.close.har := by
  have a := refreshFold_same Cause.selfClearing s
  have e : s.close.har.causes = (Cause.selfClearing.foldl State.refreshCause s).har.causes := by
    unfold State.close; generalize h : s.refreshCauses = u; unfold State.refreshCauses at h; rw [h]; rfl
  exact (⟨a.length, a.level, fun c h => a.pending c (by revert h; cases c <;> decide)⟩ :
    SameCauses (fun c => c.latched = true) s.har _).trans (.of_causes e)

/-- R148: a settled cause is left by `refreshCause`. -/
theorem refreshCause_settled (s : State) (c : Cause)
    (h : s.har.isPending c = (s.condition c && decide (1 ≤ s.har.level c))) : s.refreshCause c = s := by
  unfold State.refreshCause
  by_cases k : s.condition c = true
  · rw [if_pos k]
    apply raise_ignored
    by_cases l : s.har.level c = 0
    · exact .inr (.inl l)
    · refine .inr (.inr ?_)
      rw [h, k]; simp; omega
  · rw [if_neg k]
    apply unpend_idle
    rw [h]; simp at k; simp [k]

/-- The end of a command whose self-clearing causes are settled forms the section level and the outputs anew. -/
theorem close_settled (s : State) (h : Safety.CausesSettled s) : s.close = s.refreshPins := by
  have g : ∀ l : List Cause, (∀ c ∈ l, c ∈ Cause.selfClearing) → l.foldl State.refreshCause s = s := by
    intro l
    induction l with
    | nil => intro _; rfl
    | cons c l ih =>
      intro m
      rw [List.foldl_cons, refreshCause_settled s c (h c (m c List.mem_cons_self))]
      exact ih fun d k => m d (List.mem_cons_of_mem _ k)
  have e : s.refreshCauses = s := g _ fun c k => k
  unfold State.close; rw [e]

/-! The announced pair (R152). -/

/-- R152: pairs in their order, the level first. -/
def rank (p : Nat × Nat) : Nat := Cause.all.length * p.1 + p.2

/-- The pair that a cause gives while it is pending. -/
def Har.pairOf (h : Har) (c : Cause) : Nat × Nat := (h.level c, c.number)

/-- `announcedFrom` answers the best pair found before, or that of a pending entry, and none of them ranks above it. -/
theorem announcedFrom_spec (l : List CauseEntry) (n : Nat) (best : Nat × Nat) (b : best.2 ≤ n) :
    (announcedFrom n best l = best
      ∨ ∃ i e, l[i]? = some e ∧ e.pending = true ∧ announcedFrom n best l = (e.level, n + i))
    ∧ (best.1 < (announcedFrom n best l).1
      ∨ (best.1 = (announcedFrom n best l).1 ∧ best.2 ≤ (announcedFrom n best l).2))
    ∧ ∀ i e, l[i]? = some e → e.pending = true →
        e.level < (announcedFrom n best l).1
          ∨ (e.level = (announcedFrom n best l).1 ∧ n + i ≤ (announcedFrom n best l).2) := by
  induction l generalizing n best with
  | nil => exact ⟨.inl rfl, .inr ⟨rfl, Nat.le_refl _⟩, by simp⟩
  | cons a l ih =>
    unfold announcedFrom
    by_cases k : a.pending = true ∧ best.1 ≤ a.level
    · rw [if_pos k]
      obtain ⟨h1, h2, h3⟩ := ih (n + 1) (a.level, n) (by simp)
      simp only at h2
      refine ⟨.inr ?_, by omega, fun i e he p => ?_⟩
      · rcases h1 with h1 | ⟨i, e, he, p, h1⟩
        · exact ⟨0, a, rfl, k.1, by rw [h1]; rfl⟩
        · exact ⟨i + 1, e, he, p, by rw [h1, Nat.add_assoc, Nat.add_comm 1]⟩
      · cases i with
        | zero => simp at he; subst he; omega
        | succ i => have := h3 i e (by simpa using he) p; omega
    · rw [if_neg k]
      obtain ⟨h1, h2, h3⟩ := ih (n + 1) best (by omega)
      refine ⟨?_, h2, fun i e he p => ?_⟩
      · rcases h1 with h1 | ⟨i, e, he, p, h1⟩
        · exact .inl h1
        · exact .inr ⟨i + 1, e, he, p, by rw [h1, Nat.add_assoc, Nat.add_comm 1]⟩
      · cases i with
        | zero => simp at he; subst he; simp [p] at k; omega
        | succ i => have := h3 i e (by simpa using he) p; omega

/-- The entry of a cause. -/
theorem causeEntry {h : Har} (n : h.causes.length = Cause.all.length) (c : Cause) :
    h.causes[c.number]? = some ⟨h.level c, h.isPending c⟩ := by
  have l : c.number < h.causes.length := by rw [n]; exact c.number_lt
  simp [Har.level, Har.isPending, List.getD_eq_getElem?_getD, List.getElem?_eq_getElem l]

/-- R152: no pending cause ranks above the pair. -/
theorem rank_le {h : Har} (n : h.causes.length = Cause.all.length) {c : Cause} (p : h.isPending c = true) :
    rank (h.pairOf c) ≤ rank h.pair := by
  have := (announcedFrom_spec h.causes 0 (0, 0) (Nat.le_refl _)).2.2 c.number _ (causeEntry n c) p
  have l := c.number_lt
  change h.level c < h.pair.1 ∨ (h.level c = h.pair.1 ∧ 0 + c.number ≤ h.pair.2) at this
  simp only [rank, Har.pairOf, show Cause.all.length = 24 from rfl] at *
  omega

/-- R152: the pair is that of a pending cause, or 0 and 0. -/
theorem pair_cases {h : Har} (n : h.causes.length = Cause.all.length) :
    h.pair = (0, 0) ∨ ∃ c : Cause, h.isPending c = true ∧ h.pair = h.pairOf c := by
  rcases (announcedFrom_spec h.causes 0 (0, 0) (Nat.le_refl _)).1 with e | ⟨i, e, he, p, r⟩
  · exact .inl e
  · right
    have l : i < 24 := by
      have := (List.getElem?_eq_some_iff.1 he).1; rw [n] at this; exact this
    have all : ∀ j : Nat, j < 24 → (Cause.all.getD j .emergency).number = j := by decide
    obtain ⟨c, rfl⟩ : ∃ c : Cause, c.number = i := ⟨_, all i l⟩
    rw [causeEntry n c] at he
    cases he
    exact ⟨c, p, by rw [Nat.zero_add] at r; exact r⟩

theorem pair_snd_lt {h : Har} (n : h.causes.length = Cause.all.length) : h.pair.2 < Cause.all.length := by
  rcases pair_cases n with e | ⟨c, -, e⟩ <;> rw [e]
  · decide
  · exact c.number_lt

/-- Pairs of one rank are the same. -/
theorem rank_inj {h k : Har} (n : h.causes.length = Cause.all.length) (m : k.causes.length = Cause.all.length)
    (e : rank h.pair = rank k.pair) : h.pair = k.pair := by
  have a := pair_snd_lt n
  have b := pair_snd_lt m
  simp only [rank, show Cause.all.length = 24 from rfl] at *
  exact Prod.ext (by omega) (by omega)

/-- R152: the pair between two changes of different causes. Where it is the same before and after both, it is the same between
them, and where its level is at most 3 before and after, it is so between them. -/
theorem pair_between {l m : List Cause} {u v t : Har} (n : u.causes.length = Cause.all.length)
    (h : SameCauses (· ∉ l) u v) (k : SameCauses (· ∉ m) v t) (d : ∀ c ∈ l, c ∉ m) :
    (u.pair = t.pair → v.pair = u.pair) ∧ (u.pair.1 ≤ 3 → t.pair.1 ≤ 3 → v.pair.1 ≤ 3) := by
  have nv : v.causes.length = Cause.all.length := h.length.trans n
  have nt : t.causes.length = Cause.all.length := k.length.trans nv
  have ofV : ∀ c, v.isPending c = true → rank (v.pairOf c) ≤ rank u.pair ∨ rank (v.pairOf c) ≤ rank t.pair := by
    intro c p
    by_cases i : c ∈ l
    · right
      have := rank_le nt (c := c) (by rw [k.pending c (d c i)]; exact p)
      simpa [Har.pairOf, k.level c] using this
    · left
      have := rank_le n (c := c) (by rw [← h.pending c i]; exact p)
      simpa [Har.pairOf, h.level c] using this
  constructor
  · intro e
    apply rank_inj nv n
    apply Nat.le_antisymm
    · rcases pair_cases nv with z | ⟨c, p, z⟩
      · rw [z]; exact Nat.zero_le _
      · rw [z]
        rcases ofV c p with r | r
        · exact r
        · rw [e]; exact r
    · rcases pair_cases nt with y | ⟨c, q, y⟩
      · rw [e, y]; exact Nat.zero_le _
      · by_cases i : c ∈ l
        · have := rank_le nv (c := c) (by rw [← k.pending c (d c i)]; exact q)
          rw [e, y]; simpa [Har.pairOf, k.level c] using this
        · rcases pair_cases n with z | ⟨b, p, z⟩
          · rw [z]; exact Nat.zero_le _
          · have x : b = c := by rw [e, y] at z; exact Cause.number_inj (congrArg Prod.snd z).symm
            subst x
            have := rank_le nv (c := b) (by rw [h.pending b i]; exact p)
            rw [z]; simpa [Har.pairOf, h.level b] using this
  · intro a b
    rcases pair_cases nv with z | ⟨c, p, z⟩
    · rw [z]; exact Nat.zero_le _
    · have l := c.number_lt
      have r := ofV c p
      have x := pair_snd_lt n
      have y := pair_snd_lt nt
      rw [z]
      simp only [rank, Har.pairOf, show Cause.all.length = 24 from rfl] at *
      omega

end Sys2Proof.Machine
end

