-- ==== Sys2Proof/Laws/Ops.lean ====
section
/-! SUPPORT. What the shared operations over the transmit queue, the peer table, the shuttle and the codec can do, each said
once. -/

namespace Sys2Proof.Machine

/-! The transmit queue. -/

/-- A frame of the queue after `insertFrame` is the new one or was there. -/
theorem mem_insertFrame {f g : QueuedFrame} {q : List QueuedFrame} (h : g ∈ insertFrame f q) : g = f ∨ g ∈ q := by
  induction q with
  | nil => simpa [insertFrame] using h
  | cons a q ih =>
    unfold insertFrame at h
    split at h
    · simpa using h
    · split at h
      · rcases List.mem_cons.1 h with h | h
        · exact .inl h
        · exact .inr (List.mem_cons_of_mem _ h)
      · rcases List.mem_cons.1 h with h | h
        · exact .inr (h ▸ List.mem_cons_self)
        · rcases ih h with h | h
          · exact .inl h
          · exact .inr (List.mem_cons_of_mem _ h)

/-- R9: a frame of another kind stands in the queue after `insertFrame` as before. -/
theorem mem_insertFrame_other {f g : QueuedFrame} {q : List QueuedFrame}
    (h : f.payload.kind.priority ≠ g.payload.kind.priority) : f ∈ insertFrame g q ↔ f ∈ q := by
  have n : f ≠ g := fun e => h (e ▸ rfl)
  induction q with
  | nil => simp [insertFrame, n]
  | cons a q ih =>
    unfold insertFrame
    split
    · simp [n]
    · split
      · rename_i e
        have m : f ≠ a := fun x => h (by rw [x, e])
        simp [n, m]
      · simp [ih]

/-- A frame just queued stands in the queue. -/
theorem mem_insertFrame_self (g : QueuedFrame) (q : List QueuedFrame) : g ∈ insertFrame g q := by
  induction q with
  | nil => simp [insertFrame]
  | cons a q ih =>
    unfold insertFrame
    split
    · simp
    · split
      · simp
      · simp [ih]

/-- The order of the transmit queue (R9). -/
abbrev Before (a b : QueuedFrame) : Prop := a.payload.kind.priority < b.payload.kind.priority

/-- R9: a frame put in keeps the order of the queue. -/
theorem insertFrame_pairwise {f : QueuedFrame} {q : List QueuedFrame} (h : q.Pairwise Before) :
    (insertFrame f q).Pairwise Before := by
  induction q with
  | nil => simp [insertFrame]
  | cons a q ih =>
    rw [List.pairwise_cons] at h
    unfold insertFrame
    split
    · rename_i lt
      rw [List.pairwise_cons]
      refine ⟨fun b hb => ?_, List.pairwise_cons.2 h⟩
      rcases List.mem_cons.1 hb with rfl | hb
      · exact lt
      · exact Nat.lt_trans lt (h.1 b hb)
    · split
      · rename_i eq
        rw [List.pairwise_cons]
        exact ⟨fun b hb => by have := h.1 b hb; unfold Before at *; omega, h.2⟩
      · rw [List.pairwise_cons]
        refine ⟨fun b hb => ?_, ih h.2⟩
        rcases mem_insertFrame hb with rfl | hb
        · unfold Before; omega
        · exact h.1 b hb

/-- R10: a frame that goes back keeps the order of the queue. -/
theorem putBack_pairwise {f : QueuedFrame} {q : List QueuedFrame} (h : q.Pairwise Before) :
    (putBack f q).Pairwise Before := by
  unfold putBack
  split
  · exact h
  · exact insertFrame_pairwise h

/-- A frame of the queue after `putBack` is the one put back or was there. -/
theorem mem_putBack {f g : QueuedFrame} {q : List QueuedFrame} (h : g ∈ putBack f q) : g = f ∨ g ∈ q := by
  unfold putBack at h
  split at h
  · exact .inr h
  · exact mem_insertFrame h

/-- R10, R11: `giveUp` by cases. -/
theorem giveUp_cases (l : Lpt) :
    (l.buffer = none ∧ l.giveUp = l)
      ∨ ∃ f, l.buffer = some f ∧
          l.giveUp = { l with buffer := none, withdrawHeld := false
                              queue := if l.withdrawHeld then l.queue else putBack f l.queue } := by
  unfold Lpt.giveUp
  cases h : l.buffer with
  | none => exact .inl ⟨rfl, rfl⟩
  | some f => exact .inr ⟨f, rfl, rfl⟩

/-- R5, R6: `mark` by cases: no attempt of the station runs; its frame goes back; its frame is removed. -/
theorem mark_cases (l : Lpt) :
    (l.buffer = none ∧ l.mark = ({ l with frame := none }, none))
      ∨ (∃ f, l.buffer = some f ∧ l.countAfterMark f < 16
          ∧ l.mark = ({ l.giveUp with frame := none, counted := some f.id, count := l.countAfterMark f }, none))
      ∨ ∃ f, l.buffer = some f ∧ 16 ≤ l.countAfterMark f
          ∧ l.mark = ({ l with buffer := none, withdrawHeld := false, frame := none, counted := none, count := 0 },
              some f.payload) := by
  unfold Lpt.mark
  cases h : l.buffer with
  | none => exact .inl ⟨rfl, rfl⟩
  | some f =>
    by_cases k : l.countAfterMark f < 16
    · exact .inr (.inl ⟨f, rfl, k, by simp [k, Config.repeatLimit]⟩)
    · exact .inr (.inr ⟨f, rfl, by omega, by simp [k, Config.repeatLimit]⟩)

/-! Lists. -/

@[simp] theorem updateAt_length {α : Type} (f : α → α) (i : Nat) (l : List α) : (updateAt f i l).length = l.length := by
  induction l generalizing i with
  | nil => cases i <;> rfl
  | cons a l ih => cases i <;> simp [updateAt, ih]

/-- The element of index `i` after a change at `i`. -/
theorem updateAt_self {α : Type} (f : α → α) (i : Nat) (l : List α) : (updateAt f i l)[i]? = l[i]?.map f := by
  induction l generalizing i with
  | nil => cases i <;> rfl
  | cons a l ih => cases i <;> simp [updateAt, ih]

/-- The other elements after a change at `i`. -/
theorem updateAt_other {α : Type} (f : α → α) {i j : Nat} (h : j ≠ i) (l : List α) : (updateAt f i l)[j]? = l[j]? := by
  induction l generalizing i j with
  | nil => cases i <;> rfl
  | cons a l ih =>
    cases i with
    | zero => cases j with
      | zero => exact absurd rfl h
      | succ j => simp [updateAt]
    | succ i => cases j with
      | zero => simp [updateAt]
      | succ j => simpa [updateAt] using ih (by omega)

/-! The shuttle. -/

/-- R87, R95: `moveShuttle` by cases. -/
theorem moveShuttle_cases (s : State) (st : ShuttleState) :
    (s.ssv.shuttle = .halted ∧ s.moveShuttle st = { s with ssv := { s.ssv with haltedFrom := some st } })
      ∨ (s.ssv.shuttle ≠ .halted ∧ s.moveShuttle st = { s with ssv := { s.ssv with shuttle := st } }) := by
  unfold State.moveShuttle
  by_cases h : s.ssv.shuttle = .halted
  · exact .inl ⟨h, by simp [h]⟩
  · exact .inr ⟨h, by simp [h]⟩

/-! The observation of a frame. -/

/-- R7, R13, R14: `take` by cases: OFFLINE; foreign; delivered. -/
theorem take_cases (s : State) (f : Frame) :
    (s.offline = true ∧ s.take f = { s with lpt := s.lpt.observed (s.isOwnAttempt f) })
      ∨ (s.offline = false ∧ s.foreign f.header (s.isOwnAttempt f) = true
          ∧ s.take f = { s with lpt := s.lpt.observed (s.isOwnAttempt f) }.takeForeign)
      ∨ (s.offline = false ∧ s.foreign f.header (s.isOwnAttempt f) = false
          ∧ s.take f = ((({ s with lpt := s.lpt.observed (s.isOwnAttempt f) } : State).hear
              (s.memberList.idxOf f.header.sender)).deliver
                ⟨s.memberList.idxOf f.header.sender, s.isOwnAttempt f, s.lpt.frame.getD ⟨s.ltu.lineTime, 0⟩⟩ f).close) := by
  have e : s.take f =
      let t := { s with lpt := s.lpt.observed (s.isOwnAttempt f) }
      if s.offline then t
      else if s.foreign f.header (s.isOwnAttempt f) then t.takeForeign
      else ((t.hear (s.memberList.idxOf f.header.sender)).deliver
        ⟨s.memberList.idxOf f.header.sender, s.isOwnAttempt f, s.lpt.frame.getD ⟨s.ltu.lineTime, 0⟩⟩ f).close := rfl
  rw [e]
  cases o : s.offline
  · right
    cases g : s.foreign f.header (s.isOwnAttempt f)
    · exact .inr ⟨rfl, rfl, rfl⟩
    · exact .inl ⟨rfl, rfl, rfl⟩
  · exact .inl ⟨rfl, rfl⟩

/-- R2, R4, R5, R7: `observe` by cases: the station takes no part; an attempt that loses arbitration having gone back, it finds a fault; it
takes the frame. -/
theorem observe_cases (s : State) (f : Frame) :
    (s.takesPart = false ∧ s.observe f = s)
      ∨ (s.takesPart = true ∧ (s.yieldTo f).findsFault f = true ∧ s.observe f = (s.yieldTo f).marked)
      ∨ (s.takesPart = true ∧ (s.yieldTo f).findsFault f = false ∧ s.observe f = (s.yieldTo f).take f) := by
  unfold State.observe State.sense
  cases c : s.takesPart
  · exact .inl ⟨rfl, rfl⟩
  · cases g : (s.yieldTo f).findsFault f
    · exact .inr (.inr ⟨rfl, rfl, rfl⟩)
    · exact .inr (.inl ⟨rfl, rfl, rfl⟩)

/-- R2, R10: with no attempt of the station's own there is nothing to yield. -/
theorem yieldTo_receiver {s : State} (h : s.lpt.buffer = none) (f : Frame) : s.yieldTo f = s := by
  simp [State.yieldTo, State.losesTo, h]

/-- R2: an own attempt does not lose to itself. -/
theorem losesTo_own {s : State} {f : Frame} (h : s.isOwnAttempt f = true) : s.losesTo f = false := by
  unfold State.isOwnAttempt at h
  unfold State.losesTo
  cases b : s.lpt.buffer with
  | none => rfl
  | some q =>
    cases k : s.lpt.frame with
    | none => simp [b, k] at h
    | some c =>
      simp only [b, k, Bool.and_eq_true, beq_iff_eq] at h
      obtain ⟨⟨⟨h1, h2⟩, -⟩, -⟩ := h
      simp [frameIdentifier, h1, h2]

/-! Octets. -/

@[simp] theorem octets_length (k n : Nat) : (octets k n).length = k := by
  induction k generalizing n with
  | zero => rfl
  | succ k ih => simp [octets, ih]

/-- The number that a list of octets with one more spells. -/
theorem octetsNat_append (l : List Byte) (o : Byte) : octetsNat (l ++ [o]) = 256 * octetsNat l + o.toNat := by
  simp [octetsNat, List.foldl_append]

/-- R17, R177: octets spell the number they were made from. -/
theorem octetsNat_octets (k n : Nat) (h : n < 256 ^ k) : octetsNat (octets k n) = n := by
  induction k generalizing n with
  | zero => simp at h; subst h; rfl
  | succ k ih =>
    have q : n / 256 < 256 ^ k := by
      rw [pow_succ] at h; exact Nat.div_lt_of_lt_mul (by rwa [Nat.mul_comm] at h)
    simp only [octets]
    rw [octetsNat_append, ih (n / 256) q, BitVec.toNat_ofNat]
    have : n % 2 ^ 8 = n % 256 := rfl
    omega

@[simp] theorem natBits_length (w n : Nat) : (natBits w n).length = w := by
  induction w generalizing n with
  | zero => rfl
  | succ w ih => simp [natBits, ih]

/-- The number that a list of bits with one more spells. -/
theorem bitsNat_append (l : List Bool) (b : Bool) : bitsNat (l ++ [b]) = 2 * bitsNat l + b.toNat := by
  simp [bitsNat, List.foldl_append]

/-- R17: bits spell the number they were made from. -/
theorem bitsNat_natBits (w n : Nat) (h : n < 2 ^ w) : bitsNat (natBits w n) = n := by
  induction w generalizing n with
  | zero => simp at h; subst h; rfl
  | succ w ih =>
    have q : n / 2 < 2 ^ w := by rw [pow_succ] at h; omega
    simp only [natBits]
    rw [bitsNat_append, ih (n / 2) q]
    rcases Nat.mod_two_eq_zero_or_one n with e | e <;> simp [e] <;> omega

end Sys2Proof.Machine
end

