-- ==== Sys2Proof/Laws/Effects.lean ====
section
/-! SUPPORT. What the operations of the Hold Arbiter do, and when they do it: each of them changes the drive through causes of level 7
only, and the transmit queue through the announced pair and the causes that stop. -/

namespace Sys2Proof.Safety

open Sys2Proof.Machine

theorem SameFrames.rfl' (k : FrameKind) (s : State) : SameFrames k s s := fun _ _ => Iff.rfl

theorem SameFrames.trans {k : FrameKind} {u v t : State} (a : SameFrames k u v) (b : SameFrames k v t) :
    SameFrames k u t := fun f e => (b f e).trans (a f e)

theorem SameFrames.of_lpt {k : FrameKind} {u t : State} (e : t.lpt = u.lpt) : SameFrames k u t := fun f _ => by rw [e]

end Sys2Proof.Safety

namespace Sys2Proof.Machine

open Sys2Proof.Safety

/-- A cause that is pending is one of the pending causes of its level. -/
theorem anyPendingAt_of {h : Har} (n : h.causes.length = Cause.all.length) {c : Cause} (p : h.isPending c = true) :
    h.anyPendingAt (h.level c) = true := by
  have e := causeEntry n c
  rw [p] at e
  unfold Har.anyPendingAt
  rw [List.any_eq_true]
  exact ⟨_, List.mem_of_getElem? e, by simp⟩

/-- R147: the pending causes of a level are causes of Table 9-1. -/
theorem anyPendingAt_iff {h : Har} (n : h.causes.length = Cause.all.length) (l : Nat) :
    h.anyPendingAt l = true ↔ ∃ c : Cause, h.level c = l ∧ h.isPending c = true := by
  refine ⟨fun p => ?_, fun ⟨c, e, p⟩ => e ▸ anyPendingAt_of n p⟩
  unfold Har.anyPendingAt at p
  rw [List.any_eq_true] at p
  obtain ⟨e, m, p⟩ := p
  obtain ⟨i, li, rfl⟩ := List.mem_iff_getElem.1 m
  have all : ∀ j : Nat, j < 24 → (Cause.all.getD j .emergency).number = j := by decide
  obtain ⟨c, rfl⟩ : ∃ c : Cause, c.number = i := ⟨_, all i (by rw [n] at li; exact li)⟩
  have k := causeEntry n c
  rw [List.getElem?_eq_getElem li] at k
  simp only [Option.some.injEq] at k
  rw [k] at p
  simp only [Bool.and_eq_true, beq_iff_eq] at p
  exact ⟨c, p.2, p.1⟩

/-- R95: the restart reads nothing but the drive, the profile, the items and line time. -/
theorem restart_congr {s t : State} (h1 : t.ssv = s.ssv) (h2 : t.pgn = s.pgn) (h3 : t.items = s.items) (h4 : t.ltu = s.ltu) :
    t.restart.ssv = s.restart.ssv ∧ t.restart.pgn = s.restart.pgn := by
  unfold State.restart State.driveOn State.reposition State.returnFrom State.encoderCount State.pitch
  rw [h1, h2, h3, h4]
  split
  · exact ⟨h1, h2⟩
  · split <;> (try split) <;> simp_all

/-- R94: the drive is dropped and the shuttle HALTED. -/
def Dropped (s : State) : Prop := s.ssv.drive = false ∧ s.ssv.shuttle = .halted

/-- What an operation of the Hold Arbiter that changes no causes but those of `l` does from `u` to `t`. -/
structure Effects (l : List Cause) (u t : State) : Prop where
  same : SameCauses (· ∉ l) u.har t.har
  frame : HoldFrame u t
  still : (∀ c, t.har.isPending c = u.har.isPending c) → t = u
  drive : (∀ c, u.har.level c = 7 → t.har.isPending c = u.har.isPending c) → t.ssv = u.ssv ∧ t.pgn = u.pgn
  dropped : ∀ c, u.har.level c = 7 → t.har.isPending c = true → (u.har.isPending c = true → Dropped u) → Dropped t
  restart : NoneHalts u t →
    (t.har.anyPendingAt 7 = true → t.ssv = u.ssv ∧ t.pgn = u.pgn)
      ∧ (u.har.anyPendingAt 7 = true → t.har.anyPendingAt 7 = false → t.ssv = u.restart.ssv ∧ t.pgn = u.restart.pgn)
  announced : PairAnnounced u → PairAnnounced t
  hold : PairAnnounced u → ¬SamePair u t →
    ∃ f ∈ t.lpt.queue, f.payload = .hold t.har.announcedLevel t.har.announcedCause
  frames : PairAnnounced u → SamePair u t → SameFrames .hold u t ∧ SameFrames .join u t
  stop : NoStopCause u t → SameFrames .stop u t
  ready : PairAnnounced u → u.har.announcedLevel ≤ 3 → t.har.announcedLevel ≤ 3 →
    t.ixs = u.ixs ∧ SameFrames .ready u t
  line : PairAnnounced u → SamePair u t → NoStopCause u t → t.lpt = u.lpt ∧ t.ixs = u.ixs

/-- Nothing has been done. -/
theorem Effects.rfl' (l : List Cause) (s : State) : Effects l s s :=
  ⟨.rfl' _ _, .rfl' s, fun _ => rfl, fun _ => ⟨rfl, rfl⟩, fun _ _ p h => h p,
    fun _ => ⟨fun _ => ⟨rfl, rfl⟩, fun a b => (by rw [a] at b; cases b)⟩, fun h => h, fun _ h => absurd ⟨rfl, rfl⟩ h,
    fun _ _ => ⟨.rfl' _ s, .rfl' _ s⟩, fun _ => .rfl' _ s, fun _ _ _ => ⟨rfl, .rfl' _ s⟩, fun _ _ _ => ⟨rfl, rfl⟩⟩

/-- R50: the sequencer is where STOP is queued only if it was there. -/
theorem queuesStop_frame {u v : State} (h : HoldFrame u v) (q : v.ixs.state.queuesStop = true) :
    u.ixs.state.queuesStop = true := by
  rcases h.ixs with e | ⟨-, e⟩
  · rw [e] at q; exact q
  · rw [e] at q; simp [SeqState.queuesStop] at q

/-- One operation after another, on different causes. -/
theorem Effects.trans {l m : List Cause} {u v t : State} (n : EveryCause u) (h : Effects l u v) (k : Effects m v t)
    (d : ∀ c ∈ l, c ∉ m) : Effects (l ++ m) u t := by
  have nv : EveryCause v := h.same.length.trans n
  have flag : ∀ c, t.har.isPending c = u.har.isPending c →
      v.har.isPending c = u.har.isPending c ∧ t.har.isPending c = v.har.isPending c := by
    intro c e
    by_cases i : c ∈ l
    · have := k.same.pending c (d c i); exact ⟨by rw [← this, e], this⟩
    · have := h.same.pending c i; exact ⟨this, by rw [this, e]⟩
  have btw := pair_between n h.same k.same d
  have pa : PairAnnounced u → PairAnnounced v := h.announced
  have mid : PairAnnounced u → SamePair u t → SamePair u v ∧ SamePair v t := by
    intro a e
    have av := pa a
    have at' := k.announced av
    unfold PairAnnounced at a av at'
    have x : u.har.pair = t.har.pair := by rw [← a, ← at', e.1, e.2]
    have y := btw.1 x
    rw [← a, ← av] at y
    obtain ⟨y1, y2⟩ := Prod.ext_iff.1 y
    exact ⟨⟨y1, y2⟩, e.1.trans y1.symm, e.2.trans y2.symm⟩
  have ns : NoStopCause u t → NoStopCause u v ∧ NoStopCause v t := by
    intro e
    refine ⟨fun q c l6 p => ?_, fun q c l6 p => ?_⟩
    · by_cases i : c ∈ l
      · rw [← k.same.pending c (d c i)]; exact e q c l6 p
      · rw [h.same.pending c i]; exact p
    · by_cases i : c ∈ l
      · rw [k.same.pending c (d c i)]; exact p
      · exact e (queuesStop_frame h.frame q) c (by rw [← h.same.level]; exact l6) (by rw [← h.same.pending c i]; exact p)
  have halts : NoneHalts u t → NoneHalts u v ∧ NoneHalts v t := by
    intro e
    refine ⟨fun c c7 p => ?_, fun c c7 p => ?_⟩
    · by_cases i : c ∈ l
      · exact e c c7 (by rw [k.same.pending c (d c i)]; exact p)
      · rw [← h.same.pending c i]; exact p
    · by_cases i : c ∈ l
      · rw [← k.same.pending c (d c i)]; exact p
      · rw [h.same.pending c i]; exact e c (by rw [← h.same.level]; exact c7) p
  have none7 : ∀ {x : State}, EveryCause x → x.har.anyPendingAt 7 = false → ∀ c, x.har.level c = 7 → x.har.isPending c = false := by
    intro x nx a c c7
    cases p : x.har.isPending c
    · rfl
    · rw [(anyPendingAt_iff nx 7).2 ⟨c, c7, p⟩] at a; cases a
  have nt : EveryCause t := k.same.length.trans nv
  have restarts : NoneHalts u t → (t.har.anyPendingAt 7 = true → t.ssv = u.ssv ∧ t.pgn = u.pgn)
      ∧ (u.har.anyPendingAt 7 = true → t.har.anyPendingAt 7 = false → t.ssv = u.restart.ssv ∧ t.pgn = u.restart.pgn) := by
    intro e
    have a := h.restart (halts e).1
    have b := k.restart (halts e).2
    refine ⟨fun p => ?_, fun p q => ?_⟩
    · obtain ⟨c, c7, pc⟩ := (anyPendingAt_iff nt 7).1 p
      have c7' : v.har.level c = 7 := by rw [← k.same.level]; exact c7
      have x := a.1 ((anyPendingAt_iff nv 7).2 ⟨c, c7', (halts e).2 c c7' pc⟩)
      exact ⟨(b.1 p).1.trans x.1, (b.1 p).2.trans x.2⟩
    · cases m7 : v.har.anyPendingAt 7 with
      | true =>
        have x := a.1 m7
        have y := restart_congr x.1 x.2 h.frame.items h.frame.ltu
        exact ⟨(b.2 m7 q).1.trans y.1, (b.2 m7 q).2.trans y.2⟩
      | false =>
        have x := a.2 p m7
        have y := k.drive fun c c7 => by
          rw [none7 nv m7 c c7, none7 nt q c (by rw [k.same.level]; exact c7)]
        exact ⟨y.1.trans x.1, y.2.trans x.2⟩
  refine ⟨?_, h.frame.trans k.frame, fun e => ?_, fun e => ?_, fun c c7 p x => ?_, restarts, fun a => k.announced (pa a),
    fun a e => ?_, fun a e => ?_, fun e => ?_, fun a a3 t3 => ?_, fun a e s => ?_⟩
  · exact ⟨k.same.length.trans h.same.length, fun c => (k.same.level c).trans (h.same.level c), fun c i =>
      (k.same.pending c fun j => i (List.mem_append_right _ j)).trans
        (h.same.pending c fun j => i (List.mem_append_left _ j))⟩
  · rw [k.still fun c => (flag c (e c)).2, h.still fun c => (flag c (e c)).1]
  · have a := h.drive fun c c7 => (flag c (e c c7)).1
    have b := k.drive fun c c7 => (flag c (e c (by rw [← h.same.level]; exact c7))).2
    exact ⟨b.1.trans a.1, b.2.trans a.2⟩
  · exact k.dropped c (by rw [h.same.level]; exact c7) p fun q => h.dropped c c7 q x
  · by_cases w : SamePair v t
    · by_cases x : SamePair u v
      · exact absurd ⟨w.1.trans x.1, w.2.trans x.2⟩ e
      · obtain ⟨f, i, g⟩ := h.hold a x
        exact ⟨f, ((k.frames (pa a) w).1 f (by rw [g]; rfl)).2 i, by rw [g, w.1, w.2]⟩
    · exact k.hold (pa a) w
  · have m := mid a e
    have x := h.frames a m.1
    have y := k.frames (pa a) m.2
    exact ⟨x.1.trans y.1, x.2.trans y.2⟩
  · exact (h.stop (ns e).1).trans (k.stop (ns e).2)
  · have av := pa a
    have at' := k.announced av
    have v3 : v.har.announcedLevel ≤ 3 := by
      have x1 : u.har.announcedLevel = u.har.pair.1 := congrArg Prod.fst a
      have x2 : v.har.announcedLevel = v.har.pair.1 := congrArg Prod.fst av
      have x3 : t.har.announcedLevel = t.har.pair.1 := congrArg Prod.fst at'
      rw [x2]; exact btw.2 (by omega) (by omega)
    have x := h.ready a a3 v3
    have y := k.ready av v3 t3
    exact ⟨y.1.trans x.1, x.2.trans y.2⟩
  · have m := mid a e
    have x := h.line a m.1 (ns s).1
    have y := k.line (pa a) m.2 (ns s).2
    exact ⟨y.1.trans x.1, y.2.trans x.2⟩

/-! The operations. -/

@[simp] theorem leaveReady_ssv (s : State) : s.leaveReady.ssv = s.ssv := by
  unfold State.leaveReady; dsimp only; split <;> rfl
@[simp] theorem leaveReady_pgn (s : State) : s.leaveReady.pgn = s.pgn := by
  unfold State.leaveReady; dsimp only; split <;> rfl
@[simp] theorem leaveReady_lpt (s : State) : s.leaveReady.lpt = s.lpt.withdraw (ofKind .ready) := by
  unfold State.leaveReady; dsimp only; split <;> rfl
@[simp] theorem renewJoin_ssv (s : State) : s.renewJoin.ssv = s.ssv := by unfold State.renewJoin; split <;> rfl
@[simp] theorem renewJoin_pgn (s : State) : s.renewJoin.pgn = s.pgn := by unfold State.renewJoin; split <;> rfl
@[simp] theorem renewJoin_ixs (s : State) : s.renewJoin.ixs = s.ixs := by unfold State.renewJoin; split <;> rfl

@[simp] theorem announce_ssv (s : State) : s.announce.ssv = s.ssv := by
  rcases announce_cases s with ⟨_, h⟩ | ⟨_, _, h⟩ | ⟨_, _, h⟩ <;> rw [h] <;> simp [State.announced]
@[simp] theorem announce_pgn (s : State) : s.announce.pgn = s.pgn := by
  rcases announce_cases s with ⟨_, h⟩ | ⟨_, _, h⟩ | ⟨_, _, h⟩ <;> rw [h] <;> simp [State.announced]

@[simp] theorem dropDrive_lpt (s : State) : s.dropDrive.lpt = s.lpt := by unfold State.dropDrive; split <;> rfl
@[simp] theorem dropDrive_ixs (s : State) : s.dropDrive.ixs = s.ixs := by unfold State.dropDrive; split <;> rfl

@[simp] theorem restart_lpt (s : State) : s.restart.lpt = s.lpt := by
  rcases restart_cases s with h | ⟨v, h, -⟩ | ⟨st, u, x, h⟩ | ⟨st, x, h⟩ <;> rw [h] <;> rfl
@[simp] theorem restart_ixs (s : State) : s.restart.ixs = s.ixs := by
  rcases restart_cases s with h | ⟨v, h, -⟩ | ⟨st, u, x, h⟩ | ⟨st, x, h⟩ <;> rw [h] <;> rfl

/-- R9: queuing a frame leaves the frames of other kinds. -/
theorem queueFrame_frames (s : State) (p : Payload) {k : FrameKind} (h : k ≠ p.kind) : SameFrames k s (s.queueFrame p) := by
  intro f e
  refine mem_insertFrame_other (g := ⟨s.lpt.nextId, p⟩) fun x => h ?_
  rw [← e]; revert x; change f.payload.kind.priority = p.kind.priority → _
  cases f.payload.kind <;> cases p.kind <;> decide

theorem renewJoin_frames (s : State) {k : FrameKind} (h : k ≠ .join) : SameFrames k s s.renewJoin := by
  unfold State.renewJoin
  split
  · exact queueFrame_frames s _ h
  · exact .rfl' _ s

theorem announced_frames (s : State) {k : FrameKind} (h : k ≠ .hold) (j : k ≠ .join) : SameFrames k s s.announced :=
  (SameFrames.of_lpt rfl : SameFrames k s
    { s with har := { s.har with announcedLevel := s.har.pair.1, announcedCause := s.har.pair.2 } }).trans
    ((queueFrame_frames _ (.hold s.har.pair.1 s.har.pair.2) h).trans (renewJoin_frames _ j))

/-- R11: withdrawing READY leaves the frames of other kinds. -/
theorem leaveReady_frames (s : State) {k : FrameKind} (h : k ≠ .ready) : SameFrames k s s.leaveReady := by
  intro f e
  rw [leaveReady_lpt]
  have : ofKind .ready f.payload = false := by simp [ofKind, e, h]
  simp [Lpt.withdraw, this]

/-- R152, R153, R43: what forming the announced pair anew does to the frames and to a station in READY. -/
theorem announce_effects (s : State) :
    (SamePair s s.announce → s.announce = s)
      ∧ (¬SamePair s s.announce →
          ∃ f ∈ s.announce.lpt.queue, f.payload = .hold s.announce.har.announcedLevel s.announce.har.announcedCause)
      ∧ SameFrames .stop s s.announce
      ∧ (s.announce.har.announcedLevel ≤ 3 → s.announce.ixs = s.ixs ∧ SameFrames .ready s s.announce) := by
  have held : ∃ f ∈ s.announced.lpt.queue, f.payload = .hold s.har.pair.1 s.har.pair.2 :=
    ⟨⟨s.lpt.nextId, .hold s.har.pair.1 s.har.pair.2⟩,
      (renewJoin_frames _ (k := .hold) (by decide) ⟨s.lpt.nextId, .hold s.har.pair.1 s.har.pair.2⟩ rfl).2
        (mem_insertFrame_self _ _), rfl⟩
  have pr := announce_pair s
  obtain ⟨p1, p2⟩ := Prod.ext_iff.1 pr
  simp only at p1 p2
  rcases announce_cases s with ⟨e, h⟩ | ⟨e, l, h⟩ | ⟨e, l, h⟩
  · rw [h]
    exact ⟨fun _ => rfl, fun x => absurd ⟨rfl, rfl⟩ x, .rfl' _ s, fun _ => ⟨rfl, .rfl' _ s⟩⟩
  · refine ⟨fun x => absurd ?_ e, fun _ => ?_, ?_, fun _ => ?_⟩
    · rw [← pr, x.1, x.2]
    · rw [p1, p2, h]; exact held
    · rw [h]; exact announced_frames s (by decide) (by decide)
    · rw [h]; exact ⟨by simp [State.announced], announced_frames s (by decide) (by decide)⟩
  · refine ⟨fun x => absurd ?_ e, fun _ => ?_, ?_, fun x => ?_⟩
    · rw [← pr, x.1, x.2]
    · rw [p1, p2, h]
      obtain ⟨f, i, g⟩ := held
      exact ⟨f, (leaveReady_frames _ (k := .hold) (by decide) f (by rw [g]; rfl)).2 i, g⟩
    · rw [h]; exact (announced_frames s (by decide) (by decide)).trans (leaveReady_frames _ (by decide))
    · rw [p1] at x; omega

/-- R94, R149: what a raising does. -/
theorem raise_effects (s : State) (c : Cause) (n : EveryCause s) : Effects [c] s (s.raise c) := by
  by_cases h : s.offline ∨ s.har.level c = 0 ∨ s.har.isPending c
  · rw [raise_ignored s c h]; exact .rfl' _ s
  have sm : SameCauses (· ∉ [c]) s.har (s.raise c).har := by
    have := raise_same s c
    exact ⟨this.length, this.level, fun d i => this.pending d (by simpa using i)⟩
  have fr := raise_frame s c
  have new : (s.raise c).har.isPending c = true := by
    have e := raise_causes s c h
    have := setPending_self s.har c true n
    simpa [Har.isPending, e] using this
  have old : s.har.isPending c = false := by simp only [not_or] at h; simpa using h.2.2
  have e := raise_taken s c h
  have ae := announce_effects { s with har := s.har.setPending c true }
  have pr := announce_pair { s with har := s.har.setPending c true }
  generalize hA : ({ s with har := s.har.setPending c true } : State).announce = A at *
  have aSsv : A.ssv = s.ssv := by rw [← hA]; simp
  have aPgn : A.pgn = s.pgn := by rw [← hA]; simp
  have aCauses : A.har.causes = (s.har.setPending c true).causes := by rw [← hA]; simp
  have aFrame : HoldFrame s A := by rw [← hA]; exact (setPending_frame s c true).trans (announce_frame _)
  -- the state after STOP
  obtain ⟨B, hB⟩ : ∃ B, B = if 6 ≤ s.har.level c ∧ A.ixs.state.queuesStop then A.queueStop c.number else A := ⟨_, rfl⟩
  have bSsv : B.ssv = s.ssv := by rw [hB]; split <;> simp [aSsv]
  have bPgn : B.pgn = s.pgn := by rw [hB]; split <;> simp [aPgn]
  have bHar : B.har = A.har := by rw [hB]; split <;> rfl
  have bIxs : B.ixs = A.ixs := by rw [hB]; split <;> rfl
  have bFrames : ∀ k, k ≠ .stop → SameFrames k A B := by
    intro k hk; rw [hB]; split
    · exact queueFrame_frames A _ hk
    · exact .rfl' _ A
  have e' : s.raise c = if s.har.level c = 7 then B.dropDrive else B := by rw [e, hB]
  have tHar : (s.raise c).har = A.har := by rw [e']; split <;> simp [bHar]
  have tIxs : (s.raise c).ixs = A.ixs := by rw [e']; split <;> simp [bIxs]
  have tLpt : (s.raise c).lpt = B.lpt := by rw [e']; split <;> simp
  have noStop : NoStopCause s (s.raise c) → B = A := by
    intro q
    rw [hB, if_neg]
    rintro ⟨l6, st⟩
    have := q (queuesStop_frame aFrame st) c l6 old
    rw [new] at this; cases this
  have samePair : SamePair s (s.raise c) → SamePair s A := by unfold SamePair; rw [tHar]; exact id
  refine ⟨sm, fr, fun x => ?_, fun x => ?_, fun d d7 p x => ?_, fun x => ⟨fun _ => ?_, fun p q => ?_⟩, fun _ => ?_,
    fun _ x => ?_, fun _ x => ?_, fun x => ?_, fun _ _ x => ?_, fun _ x y => ?_⟩
  · have := x c; rw [new, old] at this; cases this
  · rw [e', if_neg]
    · exact ⟨bSsv, bPgn⟩
    · intro l7; have := x c l7; rw [new, old] at this; cases this
  · by_cases l7 : s.har.level c = 7
    · rw [e', if_pos l7]; exact dropDrive_ssv B
    · have dc : d ≠ c := fun y => l7 (y ▸ d7)
      have := x (by rw [← sm.pending d (by simpa using dc)]; exact p)
      rw [e', if_neg l7]; unfold Dropped; rw [bSsv]; exact this
  · rw [e', if_neg]
    · exact ⟨bSsv, bPgn⟩
    · intro l7; have := x c l7 new; rw [old] at this; cases this
  · obtain ⟨d, d7, pd⟩ := (anyPendingAt_iff n 7).1 p
    have dc : d ≠ c := by rintro rfl; rw [old] at pd; cases pd
    rw [(anyPendingAt_iff (sm.length.trans n) 7).2
      ⟨d, (sm.level d).trans d7, (sm.pending d (by simpa using dc)).trans pd⟩] at q
    cases q
  · unfold PairAnnounced
    rw [tHar]
    have : A.har.pair = (s.har.setPending c true).pair := by unfold Har.pair; rw [aCauses]
    rw [this]; exact pr
  · obtain ⟨f, i, g⟩ := ae.2.1 (fun y => x (by unfold SamePair; rw [tHar]; exact y))
    refine ⟨f, ?_, by rw [tHar]; exact g⟩
    rw [tLpt]; exact (bFrames .hold (by decide) f (by rw [g]; rfl)).2 i
  · have a := ae.1 (samePair x)
    have y : A.lpt = s.lpt := by rw [a]
    exact ⟨(SameFrames.of_lpt y).trans ((bFrames .hold (by decide)).trans (.of_lpt tLpt)),
      (SameFrames.of_lpt y).trans ((bFrames .join (by decide)).trans (.of_lpt tLpt))⟩
  · have b := noStop x
    have y : SameFrames .stop s A := ae.2.2.1
    exact y.trans (.of_lpt (by rw [tLpt, b]))
  · have y := ae.2.2.2 (by rw [tHar] at x; exact x)
    exact ⟨by rw [tIxs]; exact y.1, (show SameFrames .ready s A from y.2).trans
      ((bFrames .ready (by decide)).trans (.of_lpt tLpt))⟩
  · have a := ae.1 (samePair x)
    have b := noStop y
    exact ⟨by rw [tLpt, b, a], by rw [tIxs, a]⟩

/-- R95, R149: what the end of being pending does. -/
theorem unpend_effects (s : State) (c : Cause) (n : EveryCause s) : Effects [c] s (s.unpend c) := by
  by_cases h : s.har.isPending c = true
  swap
  · rw [unpend_idle s c (by simpa using h)]; exact .rfl' _ s
  have sm : SameCauses (· ∉ [c]) s.har (s.unpend c).har := by
    have := unpend_same s c
    exact ⟨this.length, this.level, fun d i => this.pending d (by simpa using i)⟩
  have fr := unpend_frame s c
  have new : (s.unpend c).har.isPending c = false := unpend_pending s c n
  have e : s.unpend c =
      if s.har.level c = 7 ∧ !({ s with har := s.har.setPending c false } : State).announce.har.anyPendingAt 7
      then ({ s with har := s.har.setPending c false } : State).announce.restart
      else ({ s with har := s.har.setPending c false } : State).announce := by
    unfold State.unpend; rw [if_pos h]
  have ae := announce_effects { s with har := s.har.setPending c false }
  have pr := announce_pair { s with har := s.har.setPending c false }
  generalize hA : ({ s with har := s.har.setPending c false } : State).announce = A at *
  have aSsv : A.ssv = s.ssv := by rw [← hA]; simp
  have aPgn : A.pgn = s.pgn := by rw [← hA]; simp
  have aCauses : A.har.causes = (s.har.setPending c false).causes := by rw [← hA]; simp
  have tHar : (s.unpend c).har = A.har := by rw [e]; split <;> simp
  have tIxs : (s.unpend c).ixs = A.ixs := by rw [e]; split <;> simp
  have tLpt : (s.unpend c).lpt = A.lpt := by rw [e]; split <;> simp
  have samePair : SamePair s (s.unpend c) → SamePair s A := by unfold SamePair; rw [tHar]; exact id
  have aFrame : HoldFrame s A := by rw [← hA]; exact (setPending_frame s c false).trans (announce_frame _)
  refine ⟨sm, fr, fun x => ?_, fun x => ?_, fun d d7 p x => ?_, fun x => ⟨fun p => ?_, fun p q => ?_⟩, fun _ => ?_,
    fun _ x => ?_, fun _ x => ?_, fun _ => ?_, fun _ _ x => ?_, fun _ x _ => ?_⟩
  · have := x c; rw [new, h] at this; cases this
  · rw [e, if_neg]
    · exact ⟨aSsv, aPgn⟩
    · rintro ⟨l7, -⟩; have := x c l7; rw [new, h] at this; cases this
  · have dc : d ≠ c := by rintro rfl; rw [new] at p; cases p
    have := x (by rw [← sm.pending d (by simpa using dc)]; exact p)
    rw [e, if_neg]
    · unfold Dropped; rw [aSsv]; exact this
    · rintro ⟨-, q⟩
      rw [tHar] at p
      have nA : A.har.causes.length = Cause.all.length := by rw [← tHar]; exact sm.length.trans n
      have := anyPendingAt_of nA p
      have lv : A.har.level d = 7 := by rw [← tHar, sm.level]; exact d7
      rw [lv] at this; rw [this] at q; simp at q
  · rw [e, if_neg]
    · exact ⟨aSsv, aPgn⟩
    · rintro ⟨-, q⟩; rw [tHar] at p; rw [p] at q; simp at q
  · have c7 : s.har.level c = 7 := by
      obtain ⟨d, d7, pd⟩ := (anyPendingAt_iff n 7).1 p
      by_cases dc : d = c
      · rw [← dc]; exact d7
      · rw [(anyPendingAt_iff (sm.length.trans n) 7).2
          ⟨d, (sm.level d).trans d7, (sm.pending d (by simpa using dc)).trans pd⟩] at q
        cases q
    rw [tHar] at q
    rw [e, if_pos ⟨c7, by rw [q]; rfl⟩]
    exact restart_congr aSsv aPgn aFrame.items aFrame.ltu
  · unfold PairAnnounced
    rw [tHar]
    have : A.har.pair = (s.har.setPending c false).pair := by unfold Har.pair; rw [aCauses]
    rw [this]; exact pr
  · obtain ⟨f, i, g⟩ := ae.2.1 (fun y => x (by unfold SamePair; rw [tHar]; exact y))
    exact ⟨f, by rw [tLpt]; exact i, by rw [tHar]; exact g⟩
  · have a := ae.1 (samePair x)
    have y : (s.unpend c).lpt = s.lpt := by rw [tLpt, a]
    exact ⟨.of_lpt y, .of_lpt y⟩
  · exact (show SameFrames .stop s A from ae.2.2.1).trans (.of_lpt tLpt)
  · have y := ae.2.2.2 (by rw [tHar] at x; exact x)
    exact ⟨by rw [tIxs]; exact y.1, (show SameFrames .ready s A from y.2).trans (.of_lpt tLpt)⟩
  · have a := ae.1 (samePair x)
    exact ⟨by rw [tLpt, a], by rw [tIxs, a]⟩

theorem refreshCause_effects (s : State) (c : Cause) (n : EveryCause s) : Effects [c] s (s.refreshCause c) := by
  unfold State.refreshCause
  split
  · exact raise_effects s c n
  · exact unpend_effects s c n

theorem refreshFold_effects (l : List Cause) (d : l.Nodup) (s : State) (n : EveryCause s) :
    Effects l s (l.foldl State.refreshCause s) := by
  induction l generalizing s with
  | nil => exact .rfl' _ s
  | cons c l ih =>
    rw [List.nodup_cons] at d
    have a := refreshCause_effects s c n
    exact a.trans n (ih d.2 _ (a.same.length.trans n)) (by simpa using d.1)

/-- What the self-clearing causes do together. -/
theorem refreshCauses_effects (s : State) (n : EveryCause s) : Effects Cause.selfClearing s s.refreshCauses :=
  refreshFold_effects Cause.selfClearing (by decide) s n

end Sys2Proof.Machine
end

