-- ==== Sys2Proof/Laws/Follows.lean ====
section
/-! SUPPORT. Everything that the Hold Arbiter's operations and the end of a command can do, said once (`Safety.Follows`). -/

namespace Sys2Proof.Machine

open Sys2Proof.Safety

/-- What the operations of the Hold Arbiter can do to the Line Port, the drive, the profile and the mask, whatever the causes. -/
structure HoldMoves (u t : State) : Prop where
  link : t.lpt = { u.lpt with queue := t.lpt.queue, withdrawHeld := t.lpt.withdrawHeld, nextId := t.lpt.nextId }
  queue : ∀ f : QueuedFrame, ofCauses f.payload = false → (f ∈ t.lpt.queue ↔ f ∈ u.lpt.queue)
  fresh : u.lpt.nextId ≤ t.lpt.nextId ∧ ∀ f ∈ t.lpt.queue, f ∈ u.lpt.queue ∨ u.lpt.nextId ≤ f.id
  held : u.lpt.withdrawHeld = true → t.lpt.withdrawHeld = true
  join : (∃ f ∈ u.lpt.queue, f.payload = u.joinPayload) → ∃ f ∈ t.lpt.queue, f.payload = t.joinPayload
  joins : ∀ f ∈ t.lpt.queue, f.payload.kind = .join → f ∈ u.lpt.queue
    ∨ ∃ g : JoinFields, f.payload = .join g ∧ g.index = u.ixs.index ∧ g.forming = (u.ixs.state == .forming)
  index : t.ixs.index = u.ixs.index ∧ (t.ixs.state == .forming) = (u.ixs.state == .forming)
  ssv : t.ssv = { u.ssv with
    shuttle := t.ssv.shuttle, haltedFrom := t.ssv.haltedFrom, drive := t.ssv.drive
    repositionTarget := t.ssv.repositionTarget, repositionUse := t.ssv.repositionUse
    homingTimer := t.ssv.homingTimer, homeCheckTimer := t.ssv.homeCheckTimer, homeCheck := t.ssv.homeCheck
    homingStage := t.ssv.homingStage }
  timers : (t.ssv.homingTimer = u.ssv.homingTimer ∨ t.ssv.homingTimer = none)
    ∧ (t.ssv.homeCheckTimer = u.ssv.homeCheckTimer ∨ t.ssv.homeCheckTimer = none)
  stopPosition : t.pgn.stopPosition = u.pgn.stopPosition
  base : t.pgn.base = u.pgn.base
  mask : t.har.attnMask = u.har.attnMask

theorem HoldMoves.rfl' (s : State) : HoldMoves s s :=
  ⟨rfl, fun _ _ => Iff.rfl, ⟨Nat.le_refl _, fun _ h => .inl h⟩, id, id, fun _ h _ => .inl h, ⟨rfl, rfl⟩, rfl,
    ⟨.inl rfl, .inl rfl⟩, rfl, rfl, rfl⟩

theorem HoldMoves.trans {s t u : State} (h : HoldMoves s t) (k : HoldMoves t u) : HoldMoves s u := by
  refine ⟨?_, fun f e => (k.queue f e).trans (h.queue f e), ⟨h.fresh.1.trans k.fresh.1, fun f i => ?_⟩,
    fun x => k.held (h.held x), fun x => k.join (h.join x), fun f i e => ?_,
    ⟨k.index.1.trans h.index.1, k.index.2.trans h.index.2⟩, ?_, ⟨?_, ?_⟩,
    k.stopPosition.trans h.stopPosition, k.base.trans h.base, k.mask.trans h.mask⟩
  · rw [k.link, h.link]
  · rcases k.fresh.2 f i with j | j
    · exact h.fresh.2 f j
    · exact .inr (h.fresh.1.trans j)
  · rcases k.joins f i e with j | ⟨g, a, b, c⟩
    · exact h.joins f j e
    · exact .inr ⟨g, a, b.trans h.index.1, c.trans h.index.2⟩
  · rw [k.ssv, h.ssv]
  · rcases k.timers.1 with j | j
    · rw [j]; exact h.timers.1
    · exact .inr j
  · rcases k.timers.2 with j | j
    · rw [j]; exact h.timers.2
    · exact .inr j

/-- Same Line Port and sequencer: what is left to say of the drive, the profile and the mask. -/
theorem HoldMoves.of_lpt {s t : State} (h1 : t.lpt = s.lpt) (h2 : t.ixs = s.ixs) (h3 : t.joinPayload = s.joinPayload)
    (h4 : t.ssv = { s.ssv with
      shuttle := t.ssv.shuttle, haltedFrom := t.ssv.haltedFrom, drive := t.ssv.drive
      repositionTarget := t.ssv.repositionTarget, repositionUse := t.ssv.repositionUse
      homingTimer := t.ssv.homingTimer, homeCheckTimer := t.ssv.homeCheckTimer, homeCheck := t.ssv.homeCheck
      homingStage := t.ssv.homingStage })
    (h5 : (t.ssv.homingTimer = s.ssv.homingTimer ∨ t.ssv.homingTimer = none)
      ∧ (t.ssv.homeCheckTimer = s.ssv.homeCheckTimer ∨ t.ssv.homeCheckTimer = none))
    (h6 : t.pgn.stopPosition = s.pgn.stopPosition ∧ t.pgn.base = s.pgn.base) (h7 : t.har.attnMask = s.har.attnMask) :
    HoldMoves s t :=
  ⟨by rw [h1], fun _ _ => by rw [h1], by rw [h1]; exact ⟨Nat.le_refl _, fun _ h => .inl h⟩, by rw [h1]; exact id,
    by rw [h1, h3]; exact id, fun _ h _ => .inl (h1 ▸ h), by rw [h2]; exact ⟨rfl, rfl⟩, h4, h5, h6.1, h6.2, h7⟩

/-- Same Line Port, sequencer, drive, profile and mask. -/
theorem HoldMoves.of_eq {s t : State} (h1 : t.lpt = s.lpt) (h2 : t.ixs = s.ixs) (h3 : t.joinPayload = s.joinPayload)
    (h4 : t.ssv = s.ssv) (h5 : t.pgn = s.pgn) (h6 : t.har.attnMask = s.har.attnMask) : HoldMoves s t :=
  .of_lpt h1 h2 h3 (by rw [h4]) (by rw [h4]; exact ⟨.inl rfl, .inl rfl⟩) (by rw [h5]; exact ⟨rfl, rfl⟩) h6

theorem not_ofCauses_ne {f : QueuedFrame} {p : Payload} (e : ofCauses f.payload = false) (h : ofCauses p = true) :
    f.payload.kind.priority ≠ p.kind.priority := by
  revert e h; unfold ofCauses
  cases f.payload.kind <;> cases p.kind <;> decide

/-- A frame of the queue after queuing another is new or was there. -/
theorem mem_queueFrame {s : State} {p : Payload} {f : QueuedFrame} (h : f ∈ (s.queueFrame p).lpt.queue) :
    f = ⟨s.lpt.nextId, p⟩ ∨ f ∈ s.lpt.queue := mem_insertFrame h

theorem queueFrame_moves (s : State) (p : Payload) (h : ofCauses p = true) (n : p.kind ≠ .join) :
    HoldMoves s (s.queueFrame p) := by
  refine ⟨rfl, fun _ e => mem_insertFrame_other (not_ofCauses_ne e h), ⟨Nat.le_succ _, fun f i => ?_⟩, id,
    fun ⟨f, i, e⟩ => ⟨f, ?_, e⟩, fun f i e => ?_, ⟨rfl, rfl⟩, rfl, ⟨.inl rfl, .inl rfl⟩, rfl, rfl, rfl⟩
  · rcases mem_queueFrame i with j | j
    · exact .inr (by rw [j])
    · exact .inl j
  · exact (queueFrame_frames s p (k := .join) (Ne.symm n) f (by rw [e]; exact rfl)).2 i
  · rcases mem_queueFrame i with j | j
    · rw [j] at e; exact absurd e n
    · exact .inl j

theorem withdrawReady_moves (s : State) : HoldMoves s (s.withdraw (ofKind .ready)) := by
  have keep : ∀ f : QueuedFrame, ofKind .ready f.payload = false →
      (f ∈ (s.withdraw (ofKind .ready)).lpt.queue ↔ f ∈ s.lpt.queue) := by
    intro f e; simp [State.withdraw, Lpt.withdraw, e]
  have less : ∀ f ∈ (s.withdraw (ofKind .ready)).lpt.queue, f ∈ s.lpt.queue := by
    intro f i; simp [State.withdraw, Lpt.withdraw] at i; exact i.1
  refine ⟨rfl, fun f e => keep f ?_, ⟨Nat.le_refl _, fun f i => .inl (less f i)⟩,
    fun h => by simp [State.withdraw, Lpt.withdraw, h], fun ⟨f, i, e⟩ => ⟨f, (keep f (by rw [e]; rfl)).2 i, e⟩,
    fun f i _ => .inl (less f i), ⟨rfl, rfl⟩, rfl, ⟨.inl rfl, .inl rfl⟩, rfl, rfl, rfl⟩
  revert e; unfold ofCauses ofKind; cases f.payload.kind <;> decide

/-- R43: a station in READY returns to WORKING. -/
theorem leaveState_moves (s : State) (h : s.ixs.state = .ready) : HoldMoves s (s.enter .working) := by
  have j : (s.enter .working).joinPayload = s.joinPayload := by
    unfold State.joinPayload State.pitch State.memberCount State.memberList State.enter; simp [h]
  exact ⟨rfl, fun _ _ => Iff.rfl, ⟨Nat.le_refl _, fun _ h => .inl h⟩, id, by rw [j]; exact id, fun _ h _ => .inl h,
    ⟨rfl, by rw [h]; rfl⟩, rfl, ⟨.inl rfl, .inl rfl⟩, rfl, rfl, rfl⟩

theorem leaveReady_moves (s : State) : HoldMoves s s.leaveReady := by
  unfold State.leaveReady
  dsimp only
  split
  · rename_i h
    exact (withdrawReady_moves s).trans (leaveState_moves _ h)
  · exact withdrawReady_moves s

theorem announced_moves (s : State) : HoldMoves s s.announced := by
  unfold State.announced State.renewJoin
  let w : State := { s with har := { s.har with announcedLevel := s.har.pair.1, announcedCause := s.har.pair.2 } }
  let b : State := w.queueFrame (.hold s.har.pair.1 s.har.pair.2)
  change HoldMoves s (if b.lpt.holds (ofKind .join) then b.queueFrame b.joinPayload else b)
  have keep : ∀ f : QueuedFrame, f.payload.kind ≠ .hold → (f ∈ b.lpt.queue ↔ f ∈ s.lpt.queue) := fun f e =>
    queueFrame_frames w (.hold s.har.pair.1 s.har.pair.2) (k := f.payload.kind) e f rfl
  have less : ∀ f ∈ b.lpt.queue, f = ⟨s.lpt.nextId, .hold s.har.pair.1 s.har.pair.2⟩ ∨ f ∈ s.lpt.queue :=
    fun f i => mem_queueFrame i
  have other : ∀ f : QueuedFrame, ofCauses f.payload = false → (f ∈ b.lpt.queue ↔ f ∈ s.lpt.queue) := fun f e =>
    keep f (by revert e; unfold ofCauses; cases f.payload.kind <;> decide)
  split
  · refine ⟨rfl, fun f e => (mem_insertFrame_other (g := ⟨b.lpt.nextId, b.joinPayload⟩) (not_ofCauses_ne e rfl)).trans
      (other f e), ⟨Nat.le_succ_of_le (Nat.le_succ _), fun f i => ?_⟩, id,
      fun _ => ⟨⟨b.lpt.nextId, b.joinPayload⟩, mem_insertFrame_self _ _, rfl⟩, fun f i e => ?_, ⟨rfl, rfl⟩, rfl,
      ⟨.inl rfl, .inl rfl⟩, rfl, rfl, rfl⟩
    · rcases mem_queueFrame i with j | j
      · exact .inr (by rw [j]; exact Nat.le_succ _)
      · rcases less f j with k | k
        · exact .inr (by rw [k])
        · exact .inl k
    · rcases mem_queueFrame i with j | j
      · exact .inr ⟨_, by rw [j]; rfl, rfl, rfl⟩
      · exact .inl ((keep f (by rw [e]; decide)).1 j)
  · rename_i h
    refine ⟨rfl, other, ⟨Nat.le_succ _, fun f i => ?_⟩, id, fun ⟨f, i, e⟩ => ?_, fun f i e => ?_, ⟨rfl, rfl⟩, rfl,
      ⟨.inl rfl, .inl rfl⟩, rfl, rfl, rfl⟩
    · rcases less f i with k | k
      · exact .inr (by rw [k])
      · exact .inl k
    · refine absurd ?_ h
      have j : f ∈ b.lpt.queue := (keep f (by rw [e]; exact fun x : FrameKind.join = .hold => by cases x)).2 i
      simp only [Lpt.holds, Bool.or_eq_true, List.any_eq_true]
      exact .inl ⟨f, j, by rw [e]; rfl⟩
    · exact .inl ((keep f (by rw [e]; decide)).1 i)

theorem announce_moves (s : State) : HoldMoves s s.announce := by
  rcases announce_cases s with ⟨_, h⟩ | ⟨_, _, h⟩ | ⟨_, _, h⟩ <;> rw [h]
  · exact .rfl' s
  · exact announced_moves s
  · exact (announced_moves s).trans (leaveReady_moves _)

theorem setPending_moves (s : State) (c : Cause) (b : Bool) : HoldMoves s { s with har := s.har.setPending c b } :=
  .of_eq rfl rfl rfl rfl rfl rfl

theorem dropDrive_moves (s : State) : HoldMoves s s.dropDrive := by
  unfold State.dropDrive
  split
  · exact .of_lpt rfl rfl rfl rfl ⟨.inl rfl, .inl rfl⟩ ⟨rfl, rfl⟩ rfl
  · refine .of_lpt rfl rfl rfl rfl ⟨.inr rfl, .inr rfl⟩ ⟨?_, ?_⟩ rfl <;> (unfold Pgn.halt; dsimp only; split <;> rfl)

theorem raise_moves (s : State) (c : Cause) : HoldMoves s (s.raise c) := by
  by_cases h : s.offline ∨ s.har.level c = 0 ∨ s.har.isPending c
  · rw [raise_ignored s c h]; exact .rfl' s
  · rw [raise_taken s c h]
    dsimp only
    have a := (setPending_moves s c true).trans (announce_moves _)
    have q : ∀ x : State, HoldMoves x (x.queueStop c.number) := fun x =>
      queueFrame_moves x _ rfl (fun e : FrameKind.stop = .join => by cases e)
    split
    · split
      · exact (a.trans (q _)).trans (dropDrive_moves _)
      · exact a.trans (dropDrive_moves _)
    · split
      · exact a.trans (q _)
      · exact a

theorem restart_moves (s : State) : HoldMoves s s.restart := by
  unfold State.restart
  split
  · exact .rfl' s
  · split
    · exact .of_lpt rfl rfl rfl rfl ⟨.inl rfl, .inl rfl⟩ ⟨rfl, rfl⟩ rfl
    · split <;> exact .of_lpt rfl rfl rfl rfl ⟨.inl rfl, .inl rfl⟩ ⟨rfl, rfl⟩ rfl
    · exact .of_lpt rfl rfl rfl rfl ⟨.inl rfl, .inl rfl⟩ ⟨rfl, rfl⟩ rfl
    · split <;> exact .of_lpt rfl rfl rfl rfl ⟨.inl rfl, .inl rfl⟩ ⟨rfl, rfl⟩ rfl
    · exact .of_lpt rfl rfl rfl rfl ⟨.inl rfl, .inl rfl⟩ ⟨rfl, rfl⟩ rfl
    · exact .of_lpt rfl rfl rfl rfl ⟨.inl rfl, .inl rfl⟩ ⟨rfl, rfl⟩ rfl
    · exact .rfl' s

theorem unpend_moves (s : State) (c : Cause) : HoldMoves s (s.unpend c) := by
  unfold State.unpend
  split
  · have a := (setPending_moves s c false).trans (announce_moves _)
    dsimp only
    split
    · exact a.trans (restart_moves _)
    · exact a
  · exact .rfl' s

theorem refreshCause_moves (s : State) (c : Cause) : HoldMoves s (s.refreshCause c) := by
  unfold State.refreshCause
  split
  · exact raise_moves s c
  · exact unpend_moves s c

theorem refreshFold_moves (l : List Cause) (s : State) : HoldMoves s (l.foldl State.refreshCause s) := by
  induction l generalizing s with
  | nil => exact .rfl' s
  | cons c l ih => exact (refreshCause_moves s c).trans (ih _)

/-- The conditions of the self-clearing causes depend on nothing that the Hold Arbiter's operations change. -/
theorem condition_frame {s t : State} (h : HoldFrame s t) (m : t.lpt.foreignTimer = s.lpt.foreignTimer) {c : Cause}
    (k : c ∈ Cause.selfClearing) : t.condition c = s.condition c := by
  have o : t.offline = s.offline := by
    unfold State.offline
    rcases h.ixs with e | ⟨e, f⟩
    · rw [e]
    · rw [f, e]; rfl
  have u : t.isUnload = s.isUnload := by
    unfold State.isUnload State.ownIdx State.memberCount State.memberList State.stationNo; rw [h.items]
  revert k
  cases c <;> intro k <;> first
    | (exfalso; revert k; decide)
    | simp only [State.condition, o, u, m, h.rst, h.ltu, h.peers]

/-- R148: once refreshed, a self-clearing cause of level 1 or more is pending exactly while its condition is present. -/
theorem refreshCause_exact (s : State) (c : Cause) (n : s.har.causes.length = Cause.all.length)
    (l : 1 ≤ s.har.level c) (o : s.condition c = true → s.offline = false) :
    (s.refreshCause c).har.isPending c = s.condition c := by
  unfold State.refreshCause
  by_cases h : s.condition c = true
  · rw [if_pos h, raise_pending s c (o h) l n, h]
  · rw [if_neg h, unpend_pending s c n]; simpa using h

theorem condition_offline {s : State} {c : Cause} (k : c ∈ Cause.selfClearing) (h : s.condition c = true) :
    s.offline = false := by
  revert k h
  cases c <;> intro k h <;> first
    | (exfalso; revert k; decide)
    | (simp only [State.condition] at h; cases ho : s.offline <;> simp_all)

theorem refreshFold_exact (l : List Cause) (s : State) (n : s.har.causes.length = Cause.all.length)
    (d : l.Nodup) (m : ∀ c ∈ l, c ∈ Cause.selfClearing) :
    ∀ c ∈ l, 1 ≤ s.har.level c → (l.foldl State.refreshCause s).har.isPending c = s.condition c := by
  induction l generalizing s with
  | nil => intro c h; simp at h
  | cons a l ih =>
    intro c hc lv
    have sm := refreshCause_same s a
    rw [List.nodup_cons] at d
    have fr := refreshCause_frame s a
    have ft : (s.refreshCause a).lpt.foreignTimer = s.lpt.foreignTimer := by
      rw [(refreshCause_moves s a).link]
    rw [List.foldl_cons]
    rcases List.mem_cons.1 hc with rfl | hc
    · rw [(refreshFold_same l (s.refreshCause c)).pending c d.1]
      exact refreshCause_exact s c n lv (condition_offline (m c List.mem_cons_self))
    · rw [ih (s.refreshCause a) (by rw [sm.length, n]) d.2 (fun x hx => m x (List.mem_cons_of_mem _ hx)) c hc
        (by rw [sm.level]; exact lv)]
      exact condition_frame fr ft (m c (List.mem_cons_of_mem _ hc))

/-- R148: after `refreshCauses` a self-clearing cause of level 1 or more is pending exactly while its condition is present. -/
theorem refreshCauses_exact (s : State) (n : s.har.causes.length = Cause.all.length) :
    ∀ c ∈ Cause.selfClearing, 1 ≤ s.har.level c → s.refreshCauses.har.isPending c = s.condition c :=
  refreshFold_exact Cause.selfClearing s n (by decide) fun _ h => h

theorem refreshCauses_moves (s : State) : HoldMoves s s.refreshCauses := refreshFold_moves Cause.selfClearing s

theorem refreshCauses_same (s : State) : SameCauses (· ∉ Cause.selfClearing) s.har s.refreshCauses.har :=
  refreshFold_same Cause.selfClearing s

theorem latched_not_selfClearing {c : Cause} (h : c.latched = true) : c ∉ Cause.selfClearing := by
  revert h; cases c <;> decide

/-- Self-clearing causes that have settled stay settled through operations on latched causes. -/
theorem settled_after {exc : List Cause} {s u : State} (f : HoldFrame s u) (m : HoldMoves s u)
    (e : SameCauses (· ∉ exc) s.har u.har) (q : ∀ c ∈ exc, c.latched = true) (h : CausesSettled s) :
    CausesSettled u := fun c hc => by
  have n : c ∉ exc := fun i => latched_not_selfClearing (q c i) hc
  rw [e.pending c n, e.level, condition_frame f (by rw [m.link]) hc]
  exact h c hc

/-- R95, Table 5-4: the restart is the one of the table. -/
theorem restarted_of {u t : State} (h : t.ssv = u.restart.ssv) (k : t.pgn = u.restart.pgn) : Restarted u t := by
  unfold State.restart at h k
  unfold Restarted
  dsimp only
  split
  · rw [if_pos ‹_›] at h k; exact ⟨h, k⟩
  · rw [if_neg ‹_›] at h k
    cases e : u.ssv.haltedFrom with
    | none => rw [e] at h k; exact ⟨h, k⟩
    | some st =>
      rw [e] at h k
      cases st <;> first
        | exact ⟨h, k⟩
        | (dsimp only at h k ⊢
           split
           · rw [if_pos ‹_›] at h k; exact ⟨h, k⟩
           · rw [if_neg ‹_›] at h k; exact ⟨h, k⟩)

/-- Everything that operations of the Hold Arbiter on latched causes and then the end of the command can do. -/
theorem close_follows_of {exc : List Cause} {s u : State} (f : HoldFrame s u) (m : HoldMoves s u)
    (e : SameCauses (· ∉ exc) s.har u.har) (x : EveryCause s → Effects exc s u) (q : ∀ c ∈ exc, c.latched = true) :
    Follows exc s u.close := by
  have cf := f.trans (close_frame u)
  have mv := m.trans (refreshCauses_moves u)
  have sc := refreshCauses_same u
  have fold := refreshCauses_exact u
  have all := fun n : EveryCause s => (x n).trans n (refreshCauses_effects u (e.length.trans n)) fun c hc =>
    latched_not_selfClearing (q c hc)
  have pins := close_pins u
  have calm := fun h : CausesSettled s => close_settled u (settled_after f m e q h)
  have eq : u.close = u.refreshCauses.refreshPins := by unfold State.close; rfl
  have cond : ∀ c ∈ Cause.selfClearing, u.close.condition c = u.condition c := fun c hc =>
    condition_frame (close_frame u) (by rw [eq, State.refreshPins_lpt, (refreshCauses_moves u).link]) hc
  generalize u.refreshCauses = v at *
  have k : ∀ c, u.close.har.isPending c = v.har.isPending c := fun c => by rw [eq]; rfl
  have pending : ∀ c, c ∉ exc → c ∉ Cause.selfClearing → u.close.har.isPending c = s.har.isPending c := fun c n n' => by
    rw [k, sc.pending c n', e.pending c n]
  refine ⟨cf.ltu, cf.peers, cf.fxs, cf.inputs, cf.sampling, cf.rst, cf.sim, cf.cpt, cf.items, cf.freeTaken, cf.pending,
    cf.ixs, ?_, ?_, ?_, ?_, ?_, ?_, ?_, ?_, ?_, ?_, ?_, fun c => ?_,
    fun c h n => pending c n (latched_not_selfClearing h), fun n c hc lv => ?_,
    pins, fun h c n => ?_, fun n h => ?_, fun n h => ?_, fun n c c7 h0 h1 => ?_, fun n h => ?_, fun n h => ?_, fun n h h1 => ?_,
    fun n h h1 => ?_, fun n h => ?_, fun n h h1 h2 => ?_, fun n h h1 h2 => ?_⟩
  · rw [eq]; exact mv.link
  · rw [eq]; exact mv.queue
  · rw [eq]; exact mv.fresh
  · rw [eq]; exact mv.held
  · rw [eq]; exact mv.join
  · rw [eq]; exact mv.joins
  · rw [eq]; exact mv.ssv
  · rw [eq]; exact mv.timers
  · rw [eq]; exact mv.stopPosition
  · rw [eq]; exact mv.base
  · rw [eq]; exact mv.mask
  · rw [eq]; exact (sc.level c).trans (e.level c)
  · rw [k, cond c hc]; exact fold (e.length.trans n) c hc (by rw [e.level]; exact lv)
  · rw [calm h]; exact e.pending c n
  · have a : v = s := (all n).still fun c => by rw [← k]; exact h c
    rw [eq, a]; rfl
  · have a := (all n).drive fun c c7 => by rw [← k]; exact h c c7
    rw [eq]; exact a
  · have a := (all n).dropped c c7 (by rw [← k]; exact h1) fun y => by rw [h0] at y; cases y
    rw [eq]; exact a
  · have a := (all n).restart fun c c7 p => h c c7 (by rw [k]; exact p)
    rw [eq]; exact ⟨a.1, fun p q => restarted_of (a.2 p q).1 (a.2 p q).2⟩
  · have a := (all n).announced h
    rw [eq]; exact a
  · rw [eq] at h1 ⊢; exact (all n).hold h h1
  · rw [eq] at h1 ⊢; exact (all n).frames h h1
  · rw [eq] at h ⊢; exact (all n).stop h
  · rw [eq] at h2 ⊢; exact (all n).ready h h1 h2
  · rw [eq] at h1 h2 ⊢; exact (all n).line h h1 h2

/-- Everything that the end of a command can do. -/
theorem close_follows (s : State) : Follows [] s s.close :=
  close_follows_of (.rfl' s) (.rfl' s) (.rfl' _ _) (fun _ => .rfl' _ s) (by simp)

theorem SameCauses.mono {keep keep' : Cause → Prop} {h k : Har} (a : SameCauses keep h k) (m : ∀ c, keep' c → keep c) :
    SameCauses keep' h k := ⟨a.length, a.level, fun c n => a.pending c (m c n)⟩

/-- Everything that raising a latched cause and then ending the command can do. -/
theorem raise_close_follows (s : State) (c : Cause) (l : c.latched = true) : Follows [c] s (s.raise c).close :=
  close_follows_of (raise_frame s c) (raise_moves s c) ((raise_same s c).mono (by simp)) (raise_effects s c)
    (by simpa using l)

/-- Everything that clearing a latched cause and then ending the command can do. -/
theorem unpend_close_follows (s : State) (c : Cause) (l : c.latched = true) : Follows [c] s (s.unpend c).close :=
  close_follows_of (unpend_frame s c) (unpend_moves s c) ((unpend_same s c).mono (by simp)) (unpend_effects s c)
    (by simpa using l)

/-- A latched cause that a command clears is not pending at its end. -/
theorem unpend_close_pending (s : State) (c : Cause) (n : s.har.causes.length = Cause.all.length)
    (h : c.latched = true) : (s.unpend c).close.har.isPending c = false := by
  rw [(close_same (s.unpend c)).pending c h]
  exact unpend_pending s c n

/-- A cause of level 1 or more that a command raises outside OFFLINE is pending at its end, if it is latched. -/
theorem raise_close_pending (s : State) (c : Cause) (o : s.ixs.state ≠ .offline) (l : 1 ≤ s.har.level c)
    (n : s.har.causes.length = Cause.all.length) (h : c.latched = true) : (s.raise c).close.har.isPending c = true := by
  rw [(close_same (s.raise c)).pending c h]
  exact raise_pending s c (by simp [State.offline, o]) l n

end Sys2Proof.Machine
end

