-- ==== Sys2Proof/Laws/Frames.lean ====
section
/-! SUPPORT. The observation of a frame, said once. -/

namespace Sys2Proof.Machine

open Sys2Proof.Safety

/-- R6, R10, R32: the Line Port takes a frame and its sender is heard. -/
theorem arrived_eq (s : State) (m : Nat) (own : Bool) :
    ({ s with lpt := s.lpt.observed own } : State).hear m = Arrived s m own := by
  cases own <;> rfl

/-- R14: whether a frame that arrives is the station's own. -/
theorem arrives_own {s : State} {h : Header} {p : Payload} {m : Nat} {own : Bool} {clock : FrameClock}
    (a : Arrives s h p m own clock) : s.isOwnAttempt ⟨h, p⟩ = own := by
  obtain ⟨a1, a2, a3, a4, a5, a6, a7, a8⟩ := a
  cases own with
  | true =>
    obtain ⟨⟨q, b, e⟩, n, st⟩ := by simpa using a8
    simp [State.isOwnAttempt, b, a2, e, n, a5, st]
  | false =>
    obtain ⟨b, n⟩ := by simpa using a8
    simp [State.isOwnAttempt, b]

/-- R7, R13, R14: a frame that arrives is taken, delivered to the block that owns its kind, and what follows is settled. -/
theorem observe_arrives {s : State} {h : Header} {p : Payload} {m : Nat} {own : Bool} {clock : FrameClock}
    (a : Arrives s h p m own clock) :
    s.observe ⟨h, p⟩ = ((Arrived s m own).deliver ⟨m, own, clock⟩ ⟨h, p⟩).close := by
  have ow := arrives_own a
  obtain ⟨a1, a2, a3, a4, a5, a6, a7, a8⟩ := a
  have part : s.takesPart = true := by simp [State.takesPart, a1, a2]
  have good : s.findsFault ⟨h, p⟩ = false := by
    unfold wellFormedFrame at a3
    simp only [State.findsFault, State.readBackFault, a3, ow]
    cases own <;> simp_all
  have stay : s.yieldTo ⟨h, p⟩ = s := by
    cases own with
    | true => simp [State.yieldTo, losesTo_own ow]
    | false => exact yieldTo_receiver a8.1 _
  have fo : s.foreign h own = false := by
    simp only [State.foreign, a5]
    cases own <;> simp_all
  rcases observe_cases s ⟨h, p⟩ with ⟨c, -⟩ | ⟨-, c, -⟩ | ⟨-, -, e⟩
  · rw [part] at c; cases c
  · rw [stay, good] at c; cases c
  · rw [e, stay]
    rcases take_cases s ⟨h, p⟩ with ⟨o, -⟩ | ⟨-, g, -⟩ | ⟨-, -, e⟩
    · simp [State.offline, a4] at o
    · rw [ow] at g; rw [fo] at g; cases g
    · rw [e, ow, a7, a2, arrived_eq]; rfl

end Sys2Proof.Machine
end

