-- ==== Sys2Proof/Laws/Lines.lean ====
section
/-! SUPPORT. What a sample and a reset do to the input lines, which events a sample brings, and what the output lines show. -/

namespace Sys2Proof.Machine

/-! The input lines. -/

/-- R178: a sample leaves the level of every line, and counts the samples that differ from the taken value up to the third. -/
theorem sampleLine_cases (s : State) (x : InputLine) :
    (s.lineTakes x = true ∧ s.sampleLine x = { s.sampling.line x with run := 0 })
      ∨ (s.lineTakes x = false ∧ s.lineMoved x = true
        ∧ s.sampleLine x = { s.sampling.line x with run := (s.sampling.line x).run + 1 })
      ∨ (s.lineMoved x = false ∧ s.sampleLine x = { s.sampling.line x with run := 0 }) := by
  cases h : s.lineTakes x <;> cases m : s.lineMoved x <;> simp [State.sampleLine, h, m]

/-- The line of an input after a sample is the sample of its line. -/
@[simp] theorem sampleLines_line (s : State) (x : InputLine) : s.sampleLines.line x = s.sampleLine x := by cases x <;> rfl

@[simp] theorem sampleLine_level (s : State) (x : InputLine) : (s.sampleLine x).level = (s.sampling.line x).level := rfl

@[simp] theorem samplePlate_code (s : State) : s.samplePlate.code = s.sampling.plate.code := by
  unfold State.samplePlate; dsimp only; split <;> rfl

@[simp] theorem afterReset_line (g : Sampling) (x : InputLine) : g.afterReset.line x = { g.line x with run := 0 } := by
  cases x <;> rfl

@[simp] theorem afterReset_plate (g : Sampling) : g.afterReset.plate = ⟨g.plate.code, none, 0⟩ := rfl

/-- R178: a line moved from its taken value off stands at its on-level, and from on it does not. -/
theorem lineMoved_iff (s : State) (x : InputLine) :
    s.lineMoved x = true ↔ ((s.sampling.line x).level = x.onLevel ↔ s.inputs.taken x = false) := by
  unfold State.lineMoved State.lineOn
  cases s.inputs.taken x <;> simp

/-- R178: the change of an input is among the events of its line where the sample takes it. -/
theorem mem_lineEvent (s : State) (x : InputLine) (off on c : Instr) :
    c ∈ s.lineEvent x off on ↔ s.lineTakes x = true ∧ c = if s.lineOn x then on else off := by
  unfold State.lineEvent dueIf
  split <;> simp [*]

/-! The output lines (R179). -/

@[simp] theorem ofAsserted_eq_driven (b : Bool) : OutputDrive.ofAsserted b = .driven ↔ b = true := by cases b <;> decide

@[simp] theorem ofAsserted_eq_released (b : Bool) : OutputDrive.ofAsserted b = .released ↔ b = false := by cases b <;> decide

@[simp] theorem ofReleased_eq_driven (b : Bool) : OutputDrive.ofReleased b = .driven ↔ b = false := by cases b <;> decide

@[simp] theorem ofReleased_eq_released (b : Bool) : OutputDrive.ofReleased b = .released ↔ b = true := by cases b <;> decide

/-- R180: throughout a reset and from its end no output is driven. -/
@[simp] theorem resetBy_outputLines (cause : ResetCause) : (State.resetBy cause).outputLines = .undriven := rfl

/-- R179: a 740 that drives none of its outputs shows the valves closed onto the pallet, the lift down, the drive disabled, no permit to
machine and the section stopped. -/
theorem outputLines_eq_undriven (s : State) :
    s.outputLines = .undriven ↔ s.fxs.release = false ∧ s.fxs.withdraw = false ∧ s.ssv.lift = false ∧ s.ssv.drive = false
      ∧ s.pins.machPermit = false ∧ s.pins.attn = false ∧ s.pins.sectionStop = true := by
  simp [State.outputLines, OutputLines.undriven]

end Sys2Proof.Machine
end

