-- ==== Sys2Proof/Tests/Slice0.lean ====
section
/-! SUPPORT. The model's own tests: ill-formed commands refused, octets and bits written out from the manual and decoded, the
manual's worked examples, one step of each command, and a witness for the hypotheses of each statement. -/

set_option Elab.async false

namespace Sys2Proof.Tests

open Sys2Proof.Machine Sys2Proof.Safety Sys2Proof.Claims

/-! Ill-formed commands (R4, R18, R19, R173, R177, R180). -/

/-- A header of the section of the worked examples: station `n`, section 1, stamp `t`. -/
def head (n t : Nat) : Header := ⟨1, n, BitVec.ofNat 32 t⟩

/-- The JOIN fields of Table 10-4, from a working member of index 42. -/
def joinFields : JoinFields :=
  { pitch := 1250000, vmax := 204800, accel := 600, stopDecel := 1024, members := 4, index := 42, forming := false
    level := 0, cause := 0 }

/-- The POSITION fields of period 704 of index 40 (5.9.1). -/
def positionFields : PositionFields :=
  { index := 40, kind := .forward, period := 704, offset := 426778, error := 0, saturated := false }

/-- The record of pallet 304 (7.5.1): variant 5, verdict GOOD, an empty list. -/
def pallet304 : PalletRecord := ⟨304, 5, [1, 2, 3, 4, 5, 6, 7, 8, 9, 0, 1, 2], .good, false, []⟩

theorem test_wellFormed_items_refused :
    Instr.wellFormed (.setItem (.members (List.replicate 254 1))) = false
      ∧ Instr.wellFormed (.setItem (.unknown 16 [])) = false
      ∧ Instr.wellFormed (.setItem (.unknown 17 (List.replicate 255 0))) = false
      ∧ Instr.wellFormed (.setItem (.unknown 17 [])) = true ∧ Instr.wellFormed (.setItem (.pitch 0)) = true := by decide +kernel

theorem test_wellFormed_requests_refused :
    Instr.wellFormed (.loadEntry (List.replicate 256 0)) = false
      ∧ Instr.wellFormed (.loadFixture (List.replicate 256 0)) = false ∧ Instr.wellFormed (.malformedRequest 0) = false
      ∧ Instr.wellFormed (.reset .powerOn true) = false ∧ Instr.wellFormed (.reset .resetInput true) = true := by decide +kernel

theorem test_wellFormed_headers_refused :
    Instr.wellFormed (.foreignFrameObserved ⟨⟨0, 12, 0⟩, .beat .none⟩) = false
      ∧ Instr.wellFormed (.foreignFrameObserved ⟨⟨16, 12, 0⟩, .beat .none⟩) = false
      ∧ Instr.wellFormed (.beatObserved ⟨1, 0, 0⟩ .none) = false ∧ Instr.wellFormed (.liftedObserved ⟨1, 64, 0⟩ 7) = false
      ∧ Instr.wellFormed (.loweredObserved ⟨0, 12, 0⟩ 7) = false ∧ Instr.wellFormed (.beatObserved ⟨15, 63, 0⟩ .fine) = true := by
  decide +kernel

theorem test_wellFormed_payloads_refused :
    Instr.wellFormed (.stopObserved (head 12 0) 40 24 7) = false ∧ Instr.wellFormed (.stopObserved (head 12 0) 40 23 8) = false
      ∧ Instr.wellFormed (.resumeObserved (head 12 0) 40 2500001) = false
      ∧ Instr.wellFormed (.holdObserved (head 12 0) 8 0) = false ∧ Instr.wellFormed (.holdObserved (head 12 0) 7 24) = false
      ∧ Instr.wellFormed (.joinObserved (head 12 0) { joinFields with pitch := 399999 }) = false
      ∧ Instr.wellFormed (.joinObserved (head 12 0) { joinFields with members := 17 }) = false
      ∧ Instr.wellFormed (.joinObserved (head 12 0) joinFields) = true := by decide +kernel

theorem test_wellFormed_ready_refused :
    Instr.wellFormed (.readyObserved (head 12 0) ⟨7, 0, 0, .good, .held⟩) = false
      ∧ Instr.wellFormed (.readyObserved (head 12 0) ⟨7, 5, 0, .good, .empty⟩) = false
      ∧ Instr.wellFormed (.readyObserved (head 12 0) ⟨7, 0, 1, .good, .empty⟩) = false
      ∧ Instr.wellFormed (.readyObserved (head 12 0) ⟨7, 1024, 0, .good, .held⟩) = false
      ∧ Instr.wellFormed (.readyObserved (head 12 0) ⟨7, 302, 16, .good, .held⟩) = false
      ∧ Instr.wellFormed (.readyObserved (head 12 0) ⟨7, 302, 3, .suspect, .held⟩) = true := by decide +kernel

theorem test_wellFormed_position_refused :
    Instr.wellFormed (.positionObserved (head 12 0) { positionFields with period := 65536 }) = false
      ∧ Instr.wellFormed (.positionObserved (head 12 0) { positionFields with offset := 2500001 }) = false
      ∧ Instr.wellFormed (.positionObserved (head 12 0) { positionFields with error := -32768 }) = false
      ∧ Instr.wellFormed (.positionObserved (head 12 0) positionFields) = true := by decide +kernel

theorem test_wellFormed_handover_refused :
    Instr.wellFormed (.handoverObserved (head 12 0) 40 (some { pallet304 with id := 0 })) = false
      ∧ Instr.wellFormed (.handoverObserved (head 12 0) 40 (some { pallet304 with serial := [1] })) = false
      ∧ Instr.wellFormed (.handoverObserved (head 12 0) 40 (some { pallet304 with ops := [⟨64, .ok⟩] })) = false
      ∧ Instr.wellFormed (.handoverObserved (head 12 0) 40 none) = true := by decide +kernel

theorem test_wellFormed_events_refused :
    Instr.wellFormed (.memberSilent 0) = false ∧ Instr.wellFormed (.memberSilent 17) = false
      ∧ Instr.wellFormed (.locatorsEngaged false false) = false ∧ Instr.wellFormed (.locatorOff true true) = false
      ∧ Instr.wellFormed (.memberSilent 16) = true := by decide +kernel

/-! Decoding: requests written out from Table 11-5 and Table 11-6, their check by R17. -/

theorem test_decode_table_gives_no_bits : decodeTableWord 16 0 = none := rfl

theorem test_decode_setItem_number_and_pitch :
    decodeTransaction [1, 2, 0, 12, 0x5D, 0x98] = .setItem (.stationNumber 12)
      ∧ decodeTransaction [1, 5, 3, 0x00, 0x13, 0x12, 0xD0, 0x50, 0x23] = .setItem (.pitch 1250000) := by decide +kernel

theorem test_decode_setItem_members_vmax_level :
    decodeTransaction [1, 6, 2, 4, 11, 12, 13, 14, 0x29, 0x62] = .setItem (.members [11, 12, 13, 14])
      ∧ decodeTransaction [1, 3, 4, 3, 32, 0x8D, 0x70] = .setItem (.vmax 800)
      ∧ decodeTransaction [1, 3, 16, 5, 7, 0xEC, 0xF0] = .setItem (.causeLevel 5 7) := by decide +kernel

theorem test_decode_requests_without_fields :
    decodeTransaction [2, 0, 0x7B, 0x6D] = .join ∧ decodeTransaction [3, 0, 0x48, 0x5C] = .getStatus
      ∧ decodeTransaction [13, 0, 0x6B, 0x53] = .takeExitRecord ∧ decodeTransaction [16, 0, 0x1E, 0x7C] = .resume := by decide +kernel

theorem test_decode_requests_with_fields :
    decodeTransaction [5, 1, 9, 0x85, 0x74] = .clearCause 9 ∧ decodeTransaction [6, 1, 112, 0x33, 0x9A] = .setAttnMask 112
      ∧ decodeTransaction [7, 1, 1, 0x6A, 0x1C] = .reportResult 1
      ∧ decodeTransaction [15, 1, 13, 0x02, 0x31] = .getPeer 13 := by decide +kernel

/-- R19, Table 1-7: pallet 304, variant 5, twelve digits in six octets, GOOD, not truncated, no entry. -/
theorem test_decode_loadEntry :
    decodeTransaction [8, 12, 1, 48, 5, 0x12, 0x34, 0x56, 0x78, 0x90, 0x12, 0, 0, 0, 0x7D, 0xB5]
        = .loadEntry [1, 48, 5, 0x12, 0x34, 0x56, 0x78, 0x90, 0x12, 0, 0, 0]
      ∧ recordOctets pallet304 = [1, 48, 5, 0x12, 0x34, 0x56, 0x78, 0x90, 0x12, 0, 0, 0] := by decide +kernel

/-- R173: a wrong check, a length that is not the kind's, an unknown kind and a cut request are malformed; the kind none and no
octet are no request; octets after the end are ignored. -/
theorem test_decode_outcomes :
    decodeTransaction [3, 0, 0x48, 0x5D] = .malformedRequest 3 ∧ decodeTransaction [3, 0, 0x48] = .malformedRequest 3
      ∧ decodeTransaction [17, 0, 0, 0] = .malformedRequest 17 ∧ decodeTransaction [] = .noneTransaction 0
      ∧ decodeTransaction [0, 9, 9] = .noneTransaction 3 ∧ decodeTransaction [3, 0, 0x48, 0x5C, 1] = .getStatus := by decide +kernel

/-! Decoding: frames written out bit by bit from Table 1-2, Table 1-4 and Table 1-5. -/

/-- The bits of a string of 0 and 1. -/
def bits (s : String) : List Bool := s.toList.map (· == '1')

/-- LIFTED(40) from station 12 with the stamp of 3.11: 109 bits (Table 1-3). -/
theorem test_decode_lifted :
    decodeLinkBits (bits ("0" ++ "0001" ++ "001100" ++ "100000001" ++ "100000100" ++ "111010111" ++ "110010001"
        ++ "111000001" ++ "100000010" ++ "100000000" ++ "100101000" ++ "111100011" ++ "100100000" ++ "11111111"))
      = .liftedObserved (head 12 81236417) 40 := by decide +kernel

/-- BEAT with the step state FINE from station 13: 100 bits. -/
theorem test_decode_beat :
    decodeLinkBits (bits ("0" ++ "1000" ++ "001101" ++ "100000001" ++ "100000000" ++ "100000000" ++ "100000011"
        ++ "111101000" ++ "100000001" ++ "100000010" ++ "101101101" ++ "110100101" ++ "11111111"))
      = .beatObserved (head 13 1000) .fine := by decide +kernel

/-- HOLD 7, 20 from station 13 (Table 9-3): 109 bits; with one bit changed it is marked (R4). -/
theorem test_decode_hold :
    decodeLinkBits (bits ("0" ++ "0101" ++ "001101" ++ "100000001" ++ "100000000" ++ "100000000" ++ "100000011"
        ++ "101011010" ++ "100000010" ++ "100000111" ++ "100010100" ++ "100011110" ++ "110110100" ++ "11111111"))
      = .holdObserved (head 13 858) 7 20
    ∧ decodeLinkBits (bits ("0" ++ "0101" ++ "001101" ++ "100000001" ++ "100000000" ++ "100000000" ++ "100000011"
        ++ "101011010" ++ "100000010" ++ "100000111" ++ "100010101" ++ "100011110" ++ "110110100" ++ "11111111"))
      = .frameMarked := by decide +kernel

/-- R7: the last end bit may read dominant; R4: another end bit may not. -/
theorem test_decode_end_field :
    endFieldGood [true, true, true, true, true, true, true, false] = true
      ∧ endFieldGood [true, true, true, true, true, true, false, true] = false := by decide +kernel

/-- R2, R4: bits read back in the arbitration field, after it, and at the last two end bits, of a BEAT of station 13. -/
theorem test_decode_read_back :
    let own : Frame := ⟨head 13 1000, .beat .fine⟩
    let sent := frameBits own
    let flip (i : Nat) : List Bool := sent.set i (!sent.getD i true)
    decodeSentBits own none sent = [.beatObserved (head 13 1000) .fine]
      ∧ decodeSentBits own none (flip 99) = [.beatObserved (head 13 1000) .fine] ∧ decodeSentBits own none (flip 98) = [.frameMarked]
      ∧ (sent.getD 1 false, sent.getD 2 true, sent.length) = (true, false, 100)
      ∧ decodeSentBits own none (flip 1) = [.arbitrationLost, .frameMarked] ∧ decodeSentBits own none (flip 2) = [.frameMarked]
      ∧ decodeSentBits own none (flip 11) = [.frameMarked] ∧ decodeSentBits own none (flip 40) = [.frameMarked]
      ∧ decodeSentBits own none (frameBits ⟨head 12 1000, .beat .fine⟩) = [.arbitrationLost, .beatObserved (head 12 1000) .fine] := by
  decide +kernel

/-- R5: a mark of 12 bits from bit 5 or bit 7 meets the first recessive bit of station 13, bit 7, while the station still sends; one from
bit 8, or none, finds its arbitration lost. -/
theorem test_decode_mark_in_arbitration :
    let own : Frame := ⟨head 13 1000, .beat .fine⟩
    let dominant (i : Nat) : List Bool := (frameBits own).mapIdx fun j b => b && !(decide (i ≤ j) && decide (j < i + 12))
    (frameBits own).take 11 = bits ("0" ++ "1000" ++ "001101")
      ∧ decodeSentBits own (some 5) (dominant 5) = [.frameMarked] ∧ decodeSentBits own (some 7) (dominant 7) = [.frameMarked]
      ∧ decodeSentBits own (some 8) (dominant 7) = [.arbitrationLost, .frameMarked]
      ∧ decodeSentBits own none (dominant 7) = [.arbitrationLost, .frameMarked] := by decide +kernel

/-! The manual's worked numbers. -/

/-- 1.8.1: the identifiers of the four stations' frames. -/
theorem test_identifiers :
    frameIdentifier ⟨head 12 0, .ready ⟨7, 0, 0, .good, .empty⟩⟩ = 268 ∧ frameIdentifier ⟨head 13 0, .hold 0 0⟩ = 333
      ∧ frameIdentifier ⟨head 14 0, .ready ⟨7, 0, 0, .good, .empty⟩⟩ = 270
      ∧ frameIdentifier ⟨head 12 0, .beat .none⟩ = 524 := by decide +kernel

/-- Table 1-3: durations of STOP, LIFTED, READY, BEAT, JOIN and a full HANDOVER. -/
theorem test_durations :
    [4, 2, 7, 1, 18, 46].map frameDuration = [254, 218, 308, 200, 506, 1010] ∧ markedDuration 2 = 242 := by decide +kernel

/-- 2.5.1: the corrections at the beats a to e, by the samples of each. -/
theorem test_corrections :
    appliedCorrection .fine true (correctionOf [⟨0, 8⟩, ⟨2, -14⟩, ⟨3, 21⟩]) = 2
      ∧ appliedCorrection .fine true (correctionOf [⟨0, 30⟩, ⟨2, -4⟩, ⟨3, 41⟩]) = 11
      ∧ correctionOf [⟨0, 12⟩, ⟨2, -310⟩, ⟨3, 6⟩] = -48
      ∧ appliedCorrection .coarse true (correctionOf [⟨0, 12⟩, ⟨2, -310⟩, ⟨3, 6⟩]) = -25
      ∧ appliedCorrection .none true (correctionOf [⟨0, 4⟩]) = 2 ∧ correctionOf [] = 0 := by decide +kernel

/-- 2.5.1: the runs after the beats a to e; 10.8: the first correction of the rejoining station. -/
theorem test_runs :
    runsAfter 40 40 [⟨0, 8⟩, ⟨2, -14⟩, ⟨3, 21⟩] = (41, 41) ∧ runsAfter 41 41 [⟨0, 30⟩, ⟨2, -4⟩, ⟨3, 41⟩] = (42, 0)
      ∧ runsAfter 42 0 [⟨0, 12⟩, ⟨2, -310⟩, ⟨3, 6⟩] = (0, 0) ∧ runsAfter 0 0 [⟨0, 4⟩] = (1, 1) ∧ runsAfter 1 1 [] = (0, 0)
      ∧ correctionOf [⟨0, 140000030⟩, ⟨1, 140000018⟩, ⟨3, 140000060⟩] = 70000018 := by decide +kernel

/-- Table 2-3, R28: both bounds of both windows, and the limit of a run; R29: the thresholds of the step state. -/
theorem test_windows_and_thresholds :
    runsAfter 255 254 [⟨0, 25⟩, ⟨1, -25⟩] = (255, 255) ∧ runsAfter 15 31 [⟨0, 26⟩] = (16, 0)
      ∧ runsAfter 15 31 [⟨0, -250⟩, ⟨1, 250⟩] = (16, 0) ∧ runsAfter 15 31 [⟨0, 251⟩] = (0, 0)
      ∧ stepOfRuns 32 32 = .fine ∧ stepOfRuns 32 31 = .coarse ∧ stepOfRuns 15 15 = .none := by decide +kernel

/-- R21: beat boundaries at the wrap of line time; R22: a backward step past the boundary just reached. -/
theorem test_boundaries :
    firstLater 4294949999 = 4294950000 ∧ firstLater 4294950000 = 0 ∧ firstLater 0 = 50000
      ∧ nextBoundary 50000 49980 = 100000 ∧ nextBoundary 50000 150010 = 200000 := by decide +kernel

/-- 3.11 and 4.7.1: the origins from the stamps of the completing frames; R48: a stamp on a millisecond is not rounded. -/
theorem test_origins :
    originOf 81236417 = 81241000 ∧ originOf 95412783 = 95417000 ∧ originOf 81237000 = 81241000
      ∧ originOf 4294967295 = 4704 := by decide +kernel

/-- Table 4-6: the ramp start period; R56: a stop stamp early enough gives 1. -/
theorem test_ramp_start : rampStart 81241000 81941350 = 704 ∧ rampStart 81241000 81239000 = 1
    ∧ rampStart 81241000 81239001 = 2 := by decide +kernel

/-- Table 4-4: the forward profile over 1,250,000 µm. -/
theorem test_plan_forward : plan 320000000 204800 600 = ⟨341, 204600, 1223, 5600, some 1896, 1905⟩ := by decide +kernel

/-- Table 4-8: the resume profile; 5.10: the return from 571,300 µm. -/
theorem test_plan_resume_and_return :
    plan 190610400 204800 600 = ⟨341, 204600, 590, 127800, some 1060, 1272⟩
      ∧ plan 146252800 204800 600 = ⟨341, 204600, 373, 168400, some 775, 1055⟩ := by decide +kernel

/-- Table 4-9: the repositions over 0, 2, 10 and 137 µm. -/
theorem test_plan_short :
    (plan 0 5120 600).periods = 0 ∧ (plan 512 5120 600).periods = 1 ∧ plan 2560 5120 600 = ⟨2, 1200, 0, 160, some 4, 4⟩
      ∧ plan 35072 5120 600 = ⟨7, 4200, 1, 1472, some 13, 15⟩ := by decide +kernel

/-- R76: the longest forward profile. -/
theorem test_plan_longest : plan 640000000 25600 64 = ⟨400, 25600, 24600, 0, none, 25399⟩ := by decide +kernel

/-- Table 4-5 and Table 4-9: velocities of selected periods. -/
theorem test_velocities :
    [1, 341, 1564, 1895, 1896, 1897, 1905].map (planVelocity 320000000 600 (plan 320000000 204800 600))
        = [600, 204600, 204600, 6000, 5600, 5400, 600]
      ∧ [1, 2, 3, 4].map (planVelocity 2560 600 (plan 2560 5120 600)) = [600, 1200, 600, 160] := by decide +kernel

/-- R73: the local origin, from 1,000 to 1,999 µs ahead. -/
theorem test_local_wait : localWait 5000 = 1000 ∧ localWait 5001 = 1999 ∧ localOrigin 5001 = 7000 := by decide +kernel

/-- R162: timeouts of 105 and 2,000 ms; Table 6-4: the thresholds of the marks. -/
theorem test_timeouts_and_thresholds :
    Config.timeout 105 = 110000 ∧ Config.timeout 2000 = 2000000
      ∧ [1, 2, 3, 4, 5, 6, 7].map Config.settleThreshold = [16, 32, 64, 128, 256, 512, 1024] := by decide +kernel

/-- The full list of pallet 517 (Table 7-4). -/
def fullList : List OpEntry :=
  ⟨3, .suspect⟩ :: ⟨4, .ok⟩ :: (List.replicate 12 ⟨9, .ok⟩ ++ [⟨9, .ok⟩, ⟨10, .ok⟩])

/-- Table 7-4: an append to a full list drops its oldest entry, sets the mark and never betters the verdict. -/
theorem test_append_full :
    let r := appendResult ⟨517, 2, [], .suspect, false, fullList⟩ 12 .ok
    let q := appendResult r 13 .failed
    r.ops.length = 16 ∧ r.ops.head? = some ⟨4, .ok⟩ ∧ r.ops.getLast? = some ⟨12, .ok⟩ ∧ r.truncated = true
      ∧ r.verdict = .suspect ∧ q.ops.getLast? = some ⟨13, .failed⟩ ∧ q.verdict = .reject := by decide +kernel

/-- Table 7-5 and Table 7-7: the seating decisions. -/
theorem test_seating_rows :
    seatingRow (some (some pallet304)) true 0 = (.unknown, none, some .palletIdentity)
      ∧ seatingRow (some (some pallet304)) true 304 = (.held, some pallet304, none)
      ∧ seatingRow none true 302 = (.unknown, none, some .recordMissing)
      ∧ seatingRow (some (some pallet304)) false 304 = (.empty, none, some .palletMissing)
      ∧ seatingRow (some none) false 0 = (.empty, none, none) ∧ seatingRow none false 0 = (.empty, none, some .recordMissing)
      := by decide +kernel

/-- Table 8-3: the image of stations 11, 12 and 14 before the READY frames of index 42. -/
def image42 : Sim :=
  ⟨[.empty, .pallet 304 5 .good, .pallet 301 3 .good, .pallet 302 3 .reject], .pallet 303 7 .good⟩

/-- Table 8-4: frame 2 empties the exit slot, frame 4 mismatches; Table 8-5: the shift. -/
theorem test_image :
    let a := image42.write 0 (.pallet 303 7 .good)
    a = ⟨[.pallet 303 7 .good, .pallet 304 5 .good, .pallet 301 3 .good, .pallet 302 3 .reject], .unknown⟩
      ∧ slotMismatch 2 (.pallet 301 3 .good) ⟨42, 0, 0, .good, .empty⟩ = true
      ∧ slotMismatch 0 .empty ⟨42, 303, 7, .good, .held⟩ = false ∧ slotMismatch 3 .empty ⟨42, 303, 7, .good, .held⟩ = true
      ∧ (a.write 2 .empty).shift
        = ⟨[.empty, .pallet 303 7 .good, .pallet 304 5 .good, .empty], .pallet 302 3 .reject⟩ := by decide +kernel

/-- 5.9.1: the deviation tests of station 13. -/
theorem test_deviation : deviates 696 701 = false ∧ deviates 704 703 = false ∧ deviates 696 718 = true
    ∧ deviates 696 694 = false ∧ deviates 696 693 = true ∧ deviates 696 705 = false ∧ deviates 696 706 = true := by decide +kernel

/-! One step of each command, on stations of the worked section: members 11, 12, 13 and 14, pitch 1,250,000 µm, index 40. -/

/-- A command answers a next state with a property. -/
def answers (i : Instr) (s : State) (p : State → Bool) : Bool :=
  match exec i s with
  | .next t => p t
  | _ => false

/-- The response in the buffer has this status and these fields. -/
def responds (t : State) (status : Status) (fields : List Byte) : Bool :=
  match t.cpt.response with
  | some r => r.status == status && r.fields == fields
  | none => false

/-- The payloads of the transmit queue. -/
def queued (t : State) : List Payload := t.lpt.queue.map QueuedFrame.payload

/-- The items of station `n` of the worked section. -/
def sectionItems (n : Nat) : Items :=
  { Items.reset with stationNumber := some n, sectionId := some 1, members := some [11, 12, 13, 14]
                     pitch := some 1250000, accel := 600 }

/-- Station `n` in a sequencer state at index 40: in step, at home, the fixture EMPTY and OPEN. -/
def station (n : Nat) (st : SeqState) : State :=
  { State.reset with
    items := sectionItems n
    peers := List.replicate 4 { Peer.initial with matched := .yes }
    sim := ⟨List.replicate 4 .unknown, .unknown⟩
    ixs := { Ixs.reset with state := st, index := 40 }
    lpt := { Lpt.reset with idleSeen := true }
    ltu := { Ltu.reset with step := .fine, coarseRun := 40, fineRun := 40, nextBeat := some 50000 }
    ssv := { Ssv.reset with shuttle := .atHome, drive := true, liftState := .down, wordAge := 40 }
    fxs := { Fxs.reset with state := .open, release := true, withdraw := true }
    inputs := { Inputs.reset with machClear := true, home := true, liftDown := true }
    rst := { Rst.reset with status := .empty } }

/-- The record of pallet 302 (Table 3-4): variant 3, GOOD. -/
def pallet302 : PalletRecord := ⟨302, 3, [0, 0, 0, 0, 0, 0, 0, 0, 0, 3, 0, 2], .good, false, []⟩

/-- A station that holds pallet 302 secured. -/
def holding (s : State) : State :=
  { s with rst := { s.rst with status := .held, record := some pallet302 }
           fxs := { s.fxs with state := .secured, release := false, withdraw := false, marks := 5 }
           inputs := { s.inputs with pressure := true, locator1 := true, locator2 := true, palletPresent := true, plate := 302 } }

/-- The lines of the inputs stand at their taken values, high or low, and the safety circuits open or closed. -/
def wired (s : State) (k : Nat) : State :=
  let i := s.inputs
  let line (b : Bool) : LineState := ⟨if b then .high else .low, 0⟩
  let circuit (b : Bool) : LineState := ⟨if b then .open else .low, 0⟩
  { s with sampling := {
      clock := k, machClear := line i.machClear, emergency := circuit i.emergency, driveFault := circuit i.driveFault
      home := line i.home, liftUp := line i.liftUp, liftDown := line i.liftDown, pressure := line i.pressure
      locator1 := line i.locator1, locator2 := line i.locator2, palletPresent := line i.palletPresent, plate := ⟨i.plate, none, 0⟩ } }

/-- A station whose fixture holds it knows not what. -/
def unsure (s : State) : State :=
  { holding s with rst := { s.rst with status := .unknown, record := none } }

/-- A frame that another station started at this line time is on the link. -/
def receiving (s : State) (t : Nat) : State := { s with lpt := { s.lpt with frame := some ⟨BitVec.ofNat 32 t, 0⟩ } }

/-- The station's own attempt of this payload is on the link, started at this line time. -/
def sending (s : State) (p : Payload) (t : Nat) : State :=
  { s with lpt := { s.lpt with buffer := some ⟨7, p⟩, frame := some ⟨BitVec.ofNat 32 t, 0⟩ } }

/-- A mark set for every member other than the one of index `m`. -/
def markedBut (m : Nat) (f : Peer → Peer) (s : State) : State :=
  { s with peers := updateAt (fun _ => { Peer.initial with matched := .yes }) m (s.peers.map f) }

/-- The section at its forward profile of 4.5.1 in its period `c + 1`, velocity and accumulator those after period `c`. -/
def running (s : State) (c velocity acc : Nat) : State :=
  { s with pgn := { s.pgn.prepareForward 1250000 204800 600 81241000 with
                    phase := .running, begun := true, counter := c, velocity := velocity, acc := acc }
           ssv := { s.ssv with shuttle := .forward, liftState := .up, lift := true } }

/-! Configuration. Table 10-1, R147, R161, Table 10-4. -/

theorem test_setItem_vmax_in_q8 :
    answers (.setItem (.vmax 800)) State.reset (fun t => t.items.vmax == 204800 && responds t .done []) = true := by
  decide +kernel

theorem test_setItem_level_raised_to_floor :
    answers (.setItem (.causeLevel 13 2)) State.reset (fun t => t.har.level .lineTransmitFailure == 6) = true := by
  decide +kernel

theorem test_join_of_station_13 :
    answers .join { State.reset with items := sectionItems 13 } (fun t =>
      t.ixs.state == .forming && t.rst.status == .empty && t.har.announcedLevel == 4 && t.har.announcedCause == 3
        && queued t == [.hold 4 3, .join ⟨1250000, 204800, 600, 1024, 4, 0, true, 4, 3⟩]) = true := by decide +kernel

/-- R164: ACCEL q8 1,500 and HOMING_SPEED 5 µm/ms give HOMING_SPEED q8 1,500. -/
theorem test_join_clamps_homing_speed :
    answers .join { State.reset with items := { sectionItems 13 with accel := 1500, homingSpeed := 1280 } } (fun t =>
      t.items.homingSpeed == 1500 && t.items.stopDecel == 1500) = true := by decide +kernel

/-! Readings. R175, R159, R135, R144, R176, Table 11-7, Table 11-8. -/

theorem test_getStatus_after_reset :
    answers .getStatus (State.resetBy .resetInput) (fun t =>
      responds t .done [0, 0, 0, 0, 0, 3, 0, 0, 0, 0, 0, 0, 0, 0, 2, 2, 0, 0, 0, 0, 0, 0, 0, 0, 0, 0, 0, 0, 0, 0, 0, 0, 1]) = true
      := by decide +kernel

theorem test_getCauses_after_reset :
    answers .getCauses State.reset (fun t => match t.cpt.response with
      | some r => r.fields.take 3 == [0, 2, 0] && (r.fields.drop 69) == [1, 7, 0, 0, 0, 0, 127]
      | none => false) = true := by decide +kernel

theorem test_getFixtureRecord_empty :
    answers .getFixtureRecord (station 12 .working) (fun t => responds t .done [0, 0, 0, 255, 0]) = true := by decide +kernel

theorem test_getIncoming_nothing_and_refused :
    answers .getIncoming (station 12 .working) (fun t => responds t .nothing []) = true
      ∧ answers .getIncoming (station 11 .working) (fun t => responds t .refusedState []) = true := by decide +kernel

theorem test_getImage_unknown :
    answers .getImage (station 12 .working) (fun t => responds t .done [0, 40, 4, 11, 0, 12, 0, 13, 0, 14, 0, 0]) = true := by
  decide +kernel

theorem test_getPeer_position_and_refused :
    answers (.getPeer 13) (station 12 .working) (fun t =>
      responds t .done [3, 0, 1, 0, 0, 0, 0, 0, 0, 0, 0, 0, 0, 1, 0, 0, 0]) = true
      ∧ answers (.getPeer 15) (station 12 .working) (fun t => responds t .refusedValue []) = true := by decide +kernel

/-! Causes and records. Table 7-8, 9.5, R121, R129 to R133. -/

/-- Station 12 of Table 7-8 with PALLET_IDENTITY pending. -/
def identityPending (s : State) : State := { s with har := s.har.setPending .palletIdentity true }

theorem test_clearCause_refused_then_taken :
    answers (.clearCause 9) (identityPending (unsure (station 12 .working))) (fun t => responds t .refusedActive []) = true
      ∧ answers (.clearCause 9) (identityPending (holding (station 12 .working))) (fun t =>
          responds t .done [] && t.har.isPending .palletIdentity == false && t.har.announcedLevel == 0) = true := by
  decide +kernel

theorem test_setAttnMask : answers (.setAttnMask 112) State.reset (fun t => t.har.attnMask == 112#7) = true
    ∧ answers (.setAttnMask 128) State.reset (fun t => responds t .refusedValue []) = true := by decide +kernel

theorem test_reportResult :
    answers (.reportResult 1) (holding (station 12 .working)) (fun t => t.ixs.pendingResult == some .suspect) = true
      ∧ answers (.reportResult 1) (holding (station 12 .ready)) (fun t => responds t .refusedState []) = true := by
  decide +kernel

theorem test_loadEntry_at_load_station :
    let s := station 11 .working
    answers (.loadEntry (recordOctets pallet304)) { s with inputs := { s.inputs with palletPresent := true, plate := 304 } }
      (fun t => t.ixs.state == .seating && t.rst.status == .held && t.rst.record == some pallet304
        && t.fxs.state == .locating && t.fxs.release && !t.fxs.withdraw) = true := by decide +kernel

theorem test_loadFixture_of_secured_fixture :
    answers (.loadFixture (recordOctets pallet302)) (unsure (station 12 .working)) (fun t =>
      responds t .done [] && t.ixs.state == .working && t.rst.record == some pallet302 && t.pins.machPermit) = true
      ∧ answers (.loadFixture (recordOctets pallet304)) (unsure (station 12 .working)) (fun t =>
          responds t .refusedIdentity []) = true := by decide +kernel

theorem test_declareEmpty :
    let s := unsure (station 13 .forming)
    answers .declareEmpty { s with inputs := { s.inputs with palletPresent := false } } (fun t =>
      t.rst.status == .empty && t.fxs.state == .opening && t.fxs.openingStep == .one && t.fxs.marks == 0) = true := by
  decide +kernel

theorem test_takeExitRecord_head :
    let s := station 14 .working
    answers .takeExitRecord { s with rst := { s.rst with exitQueue := [pallet302, pallet304] } } (fun t =>
      responds t .done (recordOctets pallet302) && t.rst.exitQueue == [pallet304]) = true := by decide +kernel

theorem test_takeExitRecord_nothing :
    answers .takeExitRecord (station 14 .working) (fun t => responds t .nothing []) = true
      ∧ answers .takeExitRecord (station 13 .working) (fun t => responds t .refusedState []) = true := by decide +kernel

/-- Station 12 stopped at the stop position of Table 4-7, its shuttle on the stop setpoint plus `e`. -/
def stoppedAt (e : Nat) (st : SeqState) : State :=
  let s := station 12 st
  { s with pgn := { s.pgn with stopPosition := some 129389600 }
           ssv := { s.ssv with shuttle := .haltedMid, drive := false, liftState := .up, encoder := BitVec.ofNat 32 (505428 + e) } }

theorem test_resume_offers_at_once :
    answers .resume (stoppedAt 200 .stopped) (fun t =>
      t.ixs.state == .resumeWait && t.ssv.drive && queued t == [.resume 40 505428]) = true := by decide +kernel

theorem test_resume_repositions_first :
    answers .resume (stoppedAt 201 .stopped) (fun t =>
      t.ixs.state == .resumeWait && t.ssv.shuttle == .repositioning && queued t == [] && t.pgn.setpoint == 505629) = true := by
  decide +kernel

theorem test_malformedRequest :
    answers (.malformedRequest 17) State.reset (fun t => t.cpt.response == some ⟨17, .refusedValue, []⟩) = true := by
  decide +kernel

/-- R177: an empty buffer gives the kind none, a status of 0, a length of 0 and their check, then ones. -/
theorem test_noneTransaction_empty :
    answers (.noneTransaction 6) State.reset (fun t => t.cpt.shifted == [0, 0, 0, 0xCC, 0x9C, 255]) = true := by decide +kernel

/-- 11.1.1: ten octets do not read the record of 12 octets; forty do. -/
theorem test_noneTransaction_reads_in_full :
    let s := { State.reset with cpt := { Cpt.reset .powerOn with response := some ⟨13, .done, recordOctets pallet302⟩ } }
    answers (.noneTransaction 10) s (fun t => !t.cpt.responseRead) = true
      ∧ answers (.noneTransaction 40) s (fun t => t.cpt.responseRead) = true := by decide +kernel

/-- R174: the transaction of a request shifts out the buffer as it stood, one octet for each of its own and of those after them, ones after
its last; the response that is there when it ends takes the buffer. A malformed one cut after its kind octet shifts out one. -/
theorem test_request_shifts_out :
    let s (k : Nat) : State :=
      { State.reset with cpt := { Cpt.reset .powerOn with response := some ⟨13, .done, [7]⟩, trailing := k } }
    let all := [13, 0, 1, 7] ++ checkOctets [13, 0, 1, 7] ++ [255, 255, 255]
    ∀ k ∈ [0, 2, 3], ∀ x ∈ [(Instr.getStatus, 4), (.clearCause 24, 5), (.setItem (.vmax 0), 7), (.malformedRequest 17, 1)],
      answers x.1 (s k) (fun t => t.cpt.shifted == (all ++ [255]).take (x.2 + k) && t.cpt.response != (s k).cpt.response) = true := by
  decide +kernel

/-- R173, R174: the octets of a transaction after those of its request, and after the kind octet of a malformed one. -/
theorem test_trailing_octets :
    trailingOctets [3, 0, 0x48, 0x5C] = 0 ∧ trailingOctets [3, 0, 0x48, 0x5C, 1, 2] = 2 ∧ trailingOctets [5, 1, 9, 0x85, 0x74, 0] = 1
      ∧ trailingOctets [3] = 0 ∧ trailingOctets [3, 0, 0x48, 0x5D] = 3 ∧ trailingOctets [0, 9, 9] = 0 := by decide +kernel

/-! The link. 1.8.1, Table 9-3. -/

/-- R178: every input is taken as off and its line stays where it was: those that were on differ from it now. -/
theorem test_reset_from_working :
    answers (.reset .resetInput false) (wired (holding (station 12 .working)) 7) (fun t =>
      { t with sampling := Sampling.reset } == State.resetBy .resetInput && t.sampling.clock == 0
        && t.sampling.machClear == ⟨.high, 0⟩ && t.lineMoved .machClear && !t.lineMoved .emergency
        && t.sampling.plate.code == 302) = true := by decide +kernel

/-- R179, R180: in reset the valves close onto the pallet, the lift comes down, the drive is disabled, and the section is stopped; at a
working station with an OPEN fixture RELEASE, WITHDRAW and DRIVE_ENABLE are driven, and SECTION_STOP too. -/
theorem test_output_lines :
    State.reset.outputLines = .undriven
      ∧ (let s := station 12 .working
        { s with pins := { s.pins with sectionStop := false } }.outputLines
          = ⟨.driven, .driven, .released, .driven, .released, .released, .driven⟩) := by decide +kernel

theorem test_linkIdleSeen : answers .linkIdleSeen State.reset (fun t => t.lpt.idleSeen) = true := by decide +kernel

/-- Station 12 at t in 1.8.1: READY(7) goes into the buffer and BEAT stays queued. -/
theorem test_frameStart_takes_the_highest :
    answers (.frameStart true) ((station 12 .ready).queueFrame (.beat .fine) |>.queueFrame (.ready ⟨7, 0, 0, .good, .empty⟩))
      (fun t => queued t == [.beat .fine] && (t.lpt.buffer.map (·.payload.kind)) == some .ready) = true := by decide +kernel

theorem test_arbitrationLost_goes_back :
    answers .arbitrationLost (sending (station 13 .working) (.hold 4 3) 0) (fun t =>
      queued t == [.hold 4 3] && t.lpt.buffer == none && t.lpt.count == 0) = true := by decide +kernel

/-- R2, R5, R10: own HOLD of 13, identifier 333, beside READY of 12, identifier 268, out of range with variant 16: the arbitration is lost, so
the marked frame is not counted. -/
theorem test_lower_identifier_out_of_range :
    answers (observedCommand ⟨head 12 0, .ready ⟨7, 302, 16, .good, .held⟩⟩) (sending (station 13 .working) (.hold 4 3) 0) (fun t =>
      t.lpt.buffer == none && t.lpt.frame == none && queued t == [.hold 4 3] && t.lpt.count == 0 && t.lpt.counted == none) = true
      ∧ answers (observedCommand ⟨head 14 0, .hold 8 0⟩) (sending (station 13 .working) (.hold 4 3) 0) (fun t =>
        t.lpt.buffer == none && t.lpt.frame == none && queued t == [.hold 4 3] && t.lpt.count == 1 && t.lpt.counted == some 7) = true
      := by decide +kernel

theorem test_frameMarked_counts_one :
    answers .frameMarked (sending (station 13 .working) (.hold 4 3) 0) (fun t =>
      queued t == [.hold 4 3] && t.lpt.count == 1 && t.lpt.counted == some 7) = true := by decide +kernel

theorem test_frameMarked_sixteenth :
    let s := sending (station 13 .working) (.hold 4 3) 0
    answers .frameMarked { s with lpt := { s.lpt with counted := some 7, count := 15 } } (fun t =>
      t.har.isPending .lineTransmitFailure && t.lpt.count == 0 && queued t == [.hold 6 13]) = true := by decide +kernel

/-- R2, R4: the frame of another station with the identifier of the own attempt, and its own with another payload, mark the attempt; a
lower identifier leaves the station a receiver. -/
theorem test_frame_unlike_own_attempt :
    let s := sending (station 13 .working) (.hold 4 3) 0
    answers (.holdObserved (head 13 0) 5 3) s (fun t => queued t == [.hold 4 3] && t.lpt.count == 1) = true
      ∧ answers (.holdObserved (head 12 0) 5 3) s (fun t =>
        t.har.sectionLevel == 5 && queued t == [.hold 4 3] && t.lpt.buffer == none && t.lpt.count == 0) = true := by decide +kernel

/-- Table 9-3, time 0: a frame of section 2 at station 12. -/
theorem test_foreignFrame :
    answers (.foreignFrameObserved ⟨⟨2, 12, 0⟩, .beat .none⟩) (receiving (holding (station 12 .working)) 0) (fun t =>
      t.har.announcedLevel == 2 && t.har.announcedCause == 0 && queued t == [.hold 2 0] && t.pins.machPermit
        && t.lpt.foreignTimer == some 1000000) = true := by decide +kernel

theorem test_beatObserved_sample :
    answers (.beatObserved (head 13 1021) .fine) (receiving (station 12 .working) 1000) (fun t =>
      t.ltu.samples == [⟨2, 21⟩] && (t.peers.map Peer.lastOffset) == [none, none, some 21, none]) = true := by decide +kernel

/-- Table 10-5, frame 2 at station 12 and frame 6 at station 13. -/
theorem test_joinObserved_answered :
    answers (.joinObserved (head 13 0) { joinFields with index := 0, forming := true, level := 4, cause := 3 })
      (receiving (station 12 .working) 0) (fun t =>
        queued t == [.join { joinFields with index := 40 }] && t.har.sectionLevel == 4) = true := by decide +kernel

theorem test_joinObserved_adopted :
    answers (.joinObserved (head 11 0) joinFields) (receiving (station 13 .forming) 0) (fun t => t.ixs.index == 42) = true := by
  decide +kernel

/-- Table 8-4, frame 4 at station 11: the mismatch and the barrier at one observation. -/
theorem test_readyObserved_mismatch_and_barrier :
    let s := markedBut 2 (fun p => { p with ready := true }) (station 11 .ready)
    answers (.readyObserved (head 13 0) ⟨42, 0, 0, .good, .empty⟩)
      (receiving { s with ixs := { s.ixs with index := 42 }, sim := image42 } 0) (fun t =>
        t.har.isPending .imageMismatch && t.ixs.state == .releasing && t.sim.slots[2]? == some .empty
          && t.ixs.liftBarrierTimer == some 2000000 && t.ssv.lift) = true := by decide +kernel

/-- Table 3-5, frame 11: the origin 81,241,000 µs. -/
theorem test_liftedObserved_origin :
    let s := markedBut 1 (fun p => { p with lifted := true }) (station 13 .liftWait)
    answers (.liftedObserved (head 12 81236417) 40) (receiving s 0) (fun t =>
      t.ixs.state == .moving && t.ixs.origin == some 81241000 && t.pgn.periods == 1905 && t.pgn.phase == .waiting
        && t.ssv.shuttle == .forward) = true := by decide +kernel

/-- A station in SEATING that waits for its upstream member, the index just made being 40. -/
def waiting (n : Nat) (r : Option PalletRecord) : State :=
  let s := holding (station n .seating)
  { s with ixs := { s.ixs with index := 41, step := .upstream, upstreamTimer := some 1000 }
           fxs := { Fxs.reset with state := .open, release := true, withdraw := true }
           rst := { Rst.reset with status := .empty, incoming := some ⟨40, r⟩ } }

/-- Table 3-7, frame 18 at station 13: HELD with 302, and the fixture seated. -/
theorem test_loweredObserved_seats :
    answers (.loweredObserved (head 12 0) 40) (receiving (waiting 13 (some pallet302)) 0) (fun t =>
      t.rst.status == .held && t.rst.record == some pallet302 && t.fxs.state == .clamping
        && t.ixs.upstreamTimer == none) = true := by decide +kernel

/-- 4.7.1: the completing RESUME gives the origin 95,417,000 µs and 1,272 periods. -/
theorem test_resumeObserved_barrier :
    let s := markedBut 2 (fun p => { p with resume := true }) (stoppedAt 0 .resumeWait)
    answers (.resumeObserved (head 13 95412783) 40 505428) (receiving s 0) (fun t =>
      t.ixs.state == .moving && t.ixs.origin == some 95417000 && t.pgn.periods == 1272 && t.pgn.base == 129389600
        && t.pgn.setpoint == 505428) = true := by decide +kernel

theorem test_resumeObserved_deviation :
    answers (.resumeObserved (head 13 0) 40 505429) (receiving (stoppedAt 0 .stopped) 0) (fun t =>
      t.har.isPending .syncDeviation && !t.ssv.drive && t.ssv.shuttle == .halted) = true := by decide +kernel

/-- Table 4-6: STOP(40) with the stamp 81,941,350 µs in period 701: the ramp starts with period 704. -/
theorem test_stopObserved_ramp :
    let s := running (station 13 .moving) 700 204600 108438000
    answers (.stopObserved (head 12 81941350) 40 13 6) (receiving { s with ixs := { s.ixs with origin := some 81241000 } } 0)
      (fun t => t.ixs.state == .stopping && t.pgn.rampFrom == some 704 && t.pgn.phase == .ramping
        && t.har.sectionLevel == 6 && t.pins.sectionStop) = true := by decide +kernel

/-- Table 6-6 at 545.3 ms: the opening is turned into seating. -/
theorem test_stopObserved_abandons :
    let s := holding (station 13 .releasing)
    answers (.stopObserved (head 12 0) 40 14 6) (receiving { s with
        fxs := { Fxs.reset with state := .opening, openingStep := .two, release := true, withdraw := true }
        inputs := { s.inputs with pressure := false, locator1 := false } } 0) (fun t =>
      t.ixs.state == .abandoning && t.fxs.state == .locating && t.fxs.release && !t.fxs.withdraw
        && t.fxs.stepTimer == some 2000000) = true := by decide +kernel

/-- Table 9-3 at 1,400 ms: HOLD 7, 20 from 13. -/
theorem test_holdObserved :
    answers (.holdObserved (head 13 0) 7 20) (receiving (holding (station 12 .working)) 0) (fun t =>
      t.har.sectionLevel == 7 && t.pins.sectionStop && !t.pins.machPermit && t.har.announcedLevel == 0) = true := by decide +kernel

/-- 5.9.1: p = 696 against q = 718, and against q = 701. -/
theorem test_positionObserved :
    let s := running (station 13 .stopping) 718 0 0
    let at' (q : Nat) : State := { s with ssv := { s.ssv with frameCopy := some ⟨q, .ramping, .forward, false⟩ } }
    answers (.positionObserved (head 12 0) { positionFields with period := 696 }) (receiving (at' 718) 0) (fun t =>
        t.har.isPending .syncDeviation && !t.ssv.drive) = true
      ∧ answers (.positionObserved (head 11 0) { positionFields with period := 696 }) (receiving (at' 701) 0) (fun t =>
        !t.har.isPending .syncDeviation) = true := by decide +kernel

theorem test_handoverObserved_upstream :
    answers (.handoverObserved (head 12 0) 40 (some pallet302)) (receiving (station 13 .moving) 0) (fun t =>
      t.rst.incoming == some ⟨40, some pallet302⟩) = true
      ∧ answers (.handoverObserved (head 11 0) 40 (some pallet302)) (receiving (station 13 .moving) 0) (fun t =>
        t.rst.incoming == none) = true := by decide +kernel

theorem test_handoverObserved_own :
    let s := sending (station 13 .moving) (.handover 40 none) 0
    answers (.handoverObserved (head 13 0) 40 none) { s with rst := { s.rst with outgoing := some ⟨40, none, .queued⟩ } }
      (fun t => t.ixs.ownHandover && t.rst.outgoing == some ⟨40, none, .observed⟩ && t.lpt.buffer == none) = true := by
  decide +kernel

/-! Timers and the events of the state. -/

/-- Table 9-3 at 1,000 ms: FOREIGN_FRAME ends. -/
theorem test_foreignFrameTimerExpiry :
    let s := station 12 .working
    answers .foreignFrameTimerExpiry { s with lpt := { s.lpt with foreignTimer := some 0 }
                                              har := { s.har.setPending .foreignFrame true with announcedLevel := 2 } } (fun t =>
      !t.har.isPending .foreignFrame && t.har.announcedLevel == 0 && queued t == [.hold 0 0]) = true := by decide +kernel

/-- 2.5.1, beat c: the step falls to NONE in MOVING. -/
theorem test_beatInstant_step_lost :
    let s := station 12 .moving
    answers .beatInstant { s with ltu := { s.ltu with lineTime := 50000, step := .coarse, coarseRun := 42, fineRun := 0
                                                      samples := [⟨0, 12⟩, ⟨2, -310⟩, ⟨3, 6⟩] } } (fun t =>
      t.ltu.lineTime == 49975 && t.ltu.step == .none && t.har.isPending .stepLostInMotion && t.ltu.nextBeat == some 100000
        && queued t == [.stop 40 18 6, .hold 6 18, .beat .none]) = true := by decide +kernel

/-- Table 10-3 at 138 ms: the pair 6, 12. -/
theorem test_memberSilent :
    answers (.memberSilent 3) (holding (station 12 .working)) (fun t =>
      t.har.announcedLevel == 6 && t.har.announcedCause == 12 && t.pins.sectionStop && !t.pins.machPermit) = true := by
  decide +kernel

theorem test_joinRepetition :
    let s := station 13 .forming
    answers .joinRepetition { s with ixs := { s.ixs with joinTimer := some 0 } } (fun t =>
      queued t == [.join { joinFields with index := 40, forming := true }] && t.ixs.joinTimer == some 500000) = true := by
  decide +kernel

/-- Table 3-5, frame 2: 302, variant 3, the forecast SUSPECT. -/
theorem test_readyOffer_forecast :
    let s := holding (station 12 .working)
    answers .readyOffer { s with ixs := { s.ixs with pendingResult := some .suspect } } (fun t =>
      t.ixs.state == .ready && queued t == [.ready ⟨40, 302, 3, .suspect, .held⟩]) = true := by decide +kernel

theorem test_readyOffer_waits_for_result :
    answers .readyOffer (holding (station 12 .working)) (fun t => t.ixs.state == .working && queued t == []) = true := by
  decide +kernel

/-- Table 10-6: the last condition of R171 holds. -/
theorem test_formingExit :
    answers .formingExit (station 13 .forming) (fun t => t.ixs.state == .working && !t.pins.sectionStop) = true := by
  decide +kernel

/-- Station 13 that may home: UNHOMED with the lift DOWN, the home sensor on or off. -/
def unhomed (home : Bool) : State :=
  let s := station 13 .forming
  { s with ssv := { Ssv.reset with liftState := .down }, inputs := { s.inputs with home := home } }

theorem test_homingStart_creeps :
    answers .homingStart (unhomed false) (fun t =>
      t.ssv.shuttle == .homing && t.ssv.drive && t.ssv.homingTimer == some 30000000 && t.pgn.kind == .homing) = true := by
  decide +kernel

/-- 10.8: homing at home begins with the reposition of 20,000 µm. -/
theorem test_homingStart_off_the_cam :
    answers .homingStart (unhomed true) (fun t =>
      t.pgn.kind == .reposition && t.pgn.distance == 20000 * 256 && t.pgn.up && t.ssv.repositionTarget == some 20000) = true := by
  decide +kernel

theorem test_liftBarrierTimerExpiry :
    let s := station 12 .liftWait
    answers .liftBarrierTimerExpiry { s with ixs := { s.ixs with liftBarrierTimer := some 0 } } (fun t =>
      t.har.isPending .liftBarrierTimeout && queued t == [.stop 40 15 6, .hold 6 15]) = true := by decide +kernel

theorem test_loweringTimerExpiry :
    let s := station 12 .lowering
    answers .loweringTimerExpiry { s with ixs := { s.ixs with loweringTimer := some 0, step := .inPosition } } (fun t =>
      t.har.isPending .lowerFault && t.ixs.loweringTimer == none && t.condition .lowerFault) = true := by decide +kernel

theorem test_upstreamTimerExpiry :
    answers .upstreamTimerExpiry (waiting 13 none) (fun t =>
      t.har.isPending .lowerFault && t.ixs.upstreamTimer == none && t.ixs.state == .seating) = true := by decide +kernel

theorem test_homingTimerExpiry :
    let s := unhomed false
    answers .homingTimerExpiry { s with
        ssv := { s.ssv with shuttle := .homing, homingTimer := some 0, homingStage := .creep, drive := true }
        pgn := { s.pgn.prepareHoming 0 5120 600 0 with phase := .running, begun := true, counter := 20 } } (fun t =>
      t.har.isPending .returnFault && t.pgn.rampFrom == some 22 && t.ssv.drive) = true := by decide +kernel

theorem test_homeCheckTimerExpiry :
    let s := station 12 .working
    answers .homeCheckTimerExpiry { s with ssv := { s.ssv with shuttle := .returning, homeCheck := true, homeCheckTimer := some 0 }
                                           inputs := { s.inputs with home := false } } (fun t =>
      t.har.isPending .returnFault && t.ssv.homeCheck && t.ssv.homeCheckTimer == none) = true := by decide +kernel

/-- Table 6-6 at 545 ms. -/
theorem test_releaseStepTimerExpiry :
    let s := holding (station 13 .releasing)
    answers .releaseStepTimerExpiry { s with
        fxs := { Fxs.reset with state := .opening, openingStep := .two, release := true, withdraw := true
                                stepTimer := some 0 } } (fun t =>
      t.har.isPending .releaseFault && t.fxs.stepTimer == none && queued t == [.stop 40 14 6, .hold 6 14]) = true := by
  decide +kernel

theorem test_locateTimerExpiry :
    let s := station 13 .seating
    answers .locateTimerExpiry { s with fxs := { Fxs.reset with release := true, stepTimer := some 0 } } (fun t =>
      t.har.isPending .locateFault && t.fxs.state == .locating && t.fxs.release) = true := by decide +kernel

theorem test_clampTimerExpiry :
    let s := station 13 .seating
    answers .clampTimerExpiry { s with fxs := { Fxs.reset with state := .clamping, clampTimer := some 0 } } (fun t =>
      t.har.isPending .clampNotSettled && t.fxs.state == .clamping && t.fxs.clampTimer == none) = true := by decide +kernel

/-- Station 13 of Table 6-5, CLAMPING with the pressure made and `k` marks set. -/
def clamping (k : Nat) : State :=
  let s := holding (station 13 .seating)
  { s with ixs := { s.ixs with step := .seat }
           fxs := { Fxs.reset with state := .clamping, clampTimer := some 1000, marks := k } }

/-- Table 6-5 at 656 ms and at 528 ms. -/
theorem test_settleMarkSet_secures :
    answers .settleMarkSet (clamping 4) (fun t =>
      t.fxs.state == .secured && t.fxs.marks == 5 && t.fxs.settle == 256000 && t.fxs.clampTimer == none
        && t.ixs.state == .working) = true
      ∧ answers .settleMarkSet (clamping 3) (fun t => t.fxs.state == .clamping && t.fxs.marks == 4) = true := by decide +kernel

/-! Motion. -/

/-- Table 3-6 at station 12: SUSPECT appended, HANDOVER(40) queued, the fixture EMPTY. -/
theorem test_profileOrigin_moves_record :
    let s := holding (station 12 .moving)
    answers .profileOrigin { s with
        ixs := { s.ixs with pendingResult := some .suspect }, fxs := (station 12 .moving).fxs
        pgn := s.pgn.prepareForward 1250000 204800 600 81241000 } (fun t =>
      let r := { pallet302 with verdict := .suspect, ops := [⟨12, .suspect⟩] }
      queued t == [.handover 40 (some r)] && t.rst.outgoing == some ⟨40, some r, .queued⟩ && t.rst.status == .empty
        && t.ixs.pendingResult == none && t.pgn.phase == .running) = true := by decide +kernel

theorem test_profileOrigin_at_unload_station :
    let s := holding (station 14 .moving)
    answers .profileOrigin { s with
        ixs := { s.ixs with pendingResult := some .ok }, fxs := (station 14 .moving).fxs
        pgn := s.pgn.prepareForward 1250000 204800 600 81241000 } (fun t =>
      queued t == [] && t.rst.exitQueue == [{ pallet302 with ops := [⟨14, .ok⟩] }] && t.rst.outgoing == none) = true := by
  decide +kernel

/-- R75: a reposition over no distance completes at its local origin. -/
theorem test_localProfileStart :
    let s := station 13 .working
    answers .localProfileStart { s with pgn := s.pgn.prepareMove .ret 1250000 0 204800 600 0 } (fun t =>
      t.pgn.phase == .running && t.pgn.localTimer == some 1000) = true
      ∧ answers .localProfileStart { s with pgn := s.pgn.prepareMove .reposition 0 0 5120 600 0
                                            ssv := { s.ssv with shuttle := .returning, repositionUse := some .toHome } }
        (fun t => t.pgn.phase == .idle && t.ssv.homeCheckTimer == some 500000) = true := by decide +kernel

/-- Table 4-5, period 1, and Table 4-7, period 704. -/
theorem test_periodEnd_forward_and_ramp :
    answers .periodEnd (running (station 13 .moving) 0 0 0) (fun t =>
        t.pgn.setpoint == 2 && t.pgn.velocity == 600 && t.pgn.counter == 1 && t.ssv.word == 2) = true
      ∧ (let s := running (station 13 .stopping) 703 204600 109051800
        answers .periodEnd { s with pgn := { s.pgn with phase := .ramping, rampFrom := some 704 } } (fun t =>
          t.pgn.setpoint == 426778 && t.pgn.velocity == 203576 && t.pgn.acc == 109255376 && queued t != []) = true) := by
  decide +kernel

/-- Table 4-5, period 1,905, the encoder 201 µm short of PITCH: the index completes; Table 4-7, period 903: the ramp ends. -/
theorem test_periodEnd_completes_and_stops :
    let a := running (station 13 .moving) 1904 1200 319999400
    let b := running (station 13 .stopping) 902 824 129389600
    answers .periodEnd { a with ssv := { a.ssv with encoder := 1249799 } } (fun t =>
        t.ixs.state == .lowering && t.ixs.index == 41 && t.pgn.setpoint == 1250000 && t.ixs.loweringTimer == some 250000
          && t.ssv.shuttle == .atEnd) = true
      ∧ answers .periodEnd { b with pgn := { b.pgn with phase := .ramping, rampFrom := some 704 }
                                    ssv := { b.ssv with encoder := 505428 } } (fun t =>
          t.ixs.state == .stopped && t.pgn.stopSetpoint == some 505428 && t.ssv.shuttle == .haltedMid) = true := by
  decide +kernel

/-- R93, R99: the last period of a homing run gives its own setpoint out in the word, not the start of the reposition that follows. -/
theorem test_periodEnd_word_before_reposition :
    let s := unhomed false
    answers .periodEnd { s with
        ssv := { s.ssv with shuttle := .homing, homingStage := .edgeRamp, drive := true, encoder := 40, wordAge := 40 }
        pgn := { s.pgn.prepareHoming 500 5120 600 0 with
                 phase := .running, begun := true, counter := 31, velocity := 600, acc := 117760, rampFrom := some 29 } }
      (fun t => t.ssv.word == 40 && t.pgn.setpoint == 40 && t.pgn.kind == .reposition && t.pgn.start == 40
        && queued t == [.position ⟨40, .reposition, 32, 40, 0, false⟩]) = true := by decide +kernel

/-- 5.10: the return complete, the home sensor on and the error 14 µm: the check passes. -/
theorem test_setpointWordRepeat_home_check :
    let s := station 13 .working
    answers .setpointWordRepeat { s with ssv := { s.ssv with
        shuttle := .returning, homeCheck := true, homeCheckTimer := some 1, encoder := 14 } } (fun t =>
      t.ssv.shuttle == .atHome && t.ssv.followingError == 14 && t.ssv.homeCheckTimer == none) = true := by decide +kernel

/-- R97: an error of FOLLOW_LIMIT is allowed, one more drops the drive. -/
theorem test_setpointWordRepeat_following_error :
    let at' (e : Nat) : State := let s := station 13 .moving; { s with ssv := { s.ssv with encoder := BitVec.ofNat 32 e } }
    answers .setpointWordRepeat (at' 3000) (fun t => !t.har.isPending .followingError && t.ssv.drive) = true
      ∧ answers .setpointWordRepeat (at' 3001) (fun t =>
        t.har.isPending .followingError && !t.ssv.drive && t.ssv.shuttle == .halted
          && t.ssv.haltedFrom == some .atHome) = true := by decide +kernel

/-- R63, R98 (assumption 45): at the stop setpoint a shuttle that has been HALTED since its reposition offers no RESUME. -/
theorem test_setpointWordRepeat_halted :
    let s (on : Bool) : State :=
      let s := stoppedAt 0 .resumeWait
      { s with ixs := { s.ixs with resumeStep := .awaitWord }
               ssv := { s.ssv with drive := on, shuttle := if on then .haltedMid else .halted, haltedFrom := some .haltedMid } }
    answers .setpointWordRepeat { s true with pgn := { (s true).pgn with setpoint := 505428 } } (fun t =>
        queued t == [.resume 40 505428]) = true
      ∧ answers .setpointWordRepeat { s false with pgn := { (s false).pgn with setpoint := 505428 } } (fun t =>
        queued t == [] && t.ixs.resumeStep == .awaitWord) = true := by decide +kernel

theorem test_setpointWordEnd :
    let s := station 13 .working
    answers .setpointWordEnd { s with ssv := { s.ssv with wordWaiting := true }, pgn := { s.pgn with setpoint := 7 } } (fun t =>
      t.ssv.word == 7 && !t.ssv.wordWaiting && t.ssv.followingError == -7) = true := by decide +kernel

/-- R88: the position of the first sample becomes 0. -/
theorem test_homeSensorChange_edge :
    let s := unhomed false
    answers (.homeSensorChange true) { s with
        ssv := { s.ssv with shuttle := .homing, homingStage := .creep, encoder := 120, homeCapture := some 180 }
        pgn := { s.pgn.prepareHoming 500 5120 600 0 with phase := .running, begun := true, counter := 20, setpoint := 130 } }
      (fun t => t.ssv.encoder.toInt == -60 && t.pgn.setpoint == -50 && t.pgn.start == 320 && t.pgn.rampFrom == some 22) = true := by
  decide +kernel

theorem test_homeCapture :
    let s := station 13 .forming
    answers (.homeCapture true) { s with ssv := { s.ssv with encoder := 5 } } (fun t => t.ssv.homeCapture == some 5) = true
      ∧ answers (.homeCapture false) { s with ssv := { s.ssv with homeCapture := some 5 } } (fun t =>
        t.ssv.homeCapture == none) = true := by decide +kernel

/-- R92: the count wraps within its signed range. -/
theorem test_encoderEdge :
    let s := { State.reset with ssv := { Ssv.reset with encoder := 2147483647 } }
    answers (.encoderEdge true) s (fun t => t.ssv.encoder.toInt == -2147483648) = true
      ∧ answers (.encoderEdge false) State.reset (fun t => t.ssv.encoder.toInt == -1) = true := by decide +kernel

theorem test_liftUpSensorOn :
    let s := station 12 .releasing
    answers .liftUpSensorOn { s with ssv := { s.ssv with lift := true, liftState := .rising } } (fun t =>
      t.ssv.liftState == .up && t.ixs.state == .liftWait && queued t == [.lifted 40]) = true := by decide +kernel

/-- Table 3-7, frames 15 and 16: LOWERED at the unload station, and at the load station after its own HANDOVER. -/
theorem test_liftDownSensorOn_lowers :
    let falling (n : Nat) : State :=
      let s := station n .lowering
      { s with ixs := { s.ixs with index := 41, step := .liftDown, loweringTimer := some 9, ownHandover := n == 11 }
               ssv := { s.ssv with shuttle := .atEnd, liftState := .falling }, inputs := { s.inputs with liftDown := false } }
    answers .liftDownSensorOn (falling 14) (fun t =>
        queued t == [.lowered 40] && t.ixs.state == .seating && t.ssv.shuttle == .returning && t.pgn.kind == .ret) = true
      ∧ answers .liftDownSensorOn (falling 11) (fun t => queued t == [.lowered 40] && t.ixs.state == .working) = true := by
  decide +kernel

theorem test_liftSensorOff :
    answers (.liftSensorOff false) (station 12 .working) (fun t => t.ssv.liftState == .falling && !t.inputs.liftDown) = true := by
  decide +kernel

/-! The discrete inputs. -/

theorem test_machClearDrop :
    answers .machClearDrop (station 12 .ready) (fun t => t.har.isPending .machIntrusion && t.ixs.state == .working) = true
      ∧ answers .machClearDrop (station 12 .working) (fun t => !t.har.isPending .machIntrusion) = true := by decide +kernel

theorem test_machClearOn : answers .machClearOn State.reset (fun t => t.inputs.machClear) = true := by decide +kernel

theorem test_emergencyOn :
    answers .emergencyOn (station 12 .working) (fun t =>
      t.har.announcedLevel == 7 && t.har.announcedCause == 23 && !t.ssv.drive && t.ssv.haltedFrom == some .atHome) = true
      ∧ answers .emergencyOn State.reset (fun t => !t.har.isPending .emergency) = true := by decide +kernel

theorem test_emergencyOff :
    let s := station 12 .working
    answers .emergencyOff { s with inputs := { s.inputs with emergency := true } } (fun t => !t.inputs.emergency) = true := by
  decide +kernel

/-- 5.10: the drive fault in the return, and the restart from 571,300 µm after the clear. -/
theorem test_driveFaultOn_halts_return :
    let s := station 13 .working
    answers .driveFaultOn { s with ssv := { s.ssv with shuttle := .returning }
                                   pgn := { s.pgn.prepareMove .ret 1250000 0 204800 600 0 with
                                            phase := .running, setpoint := 600000 } } (fun t =>
      t.ssv.shuttle == .halted && t.ssv.haltedFrom == some .returning && t.pgn.setpoint == 600000 && t.pgn.phase == .idle)
      = true := by decide +kernel

theorem test_driveFaultOff_then_restart :
    let s := station 13 .working
    answers .driveFaultOff { s with inputs := { s.inputs with driveFault := true } } (fun t => !t.inputs.driveFault) = true
      ∧ answers (.clearCause 22) { s with
          har := s.har.setPending .driveFault true
          ssv := { s.ssv with shuttle := .halted, haltedFrom := some .returning, drive := false, encoder := 571300 } } (fun t =>
        t.ssv.shuttle == .returning && t.ssv.drive && t.pgn.setpoint == 571300 && t.pgn.periods == 1055) = true := by
  decide +kernel

/-- Table 6-5 at 350 ms, and CLAMP_PRESSURE_LOST in SECURED. -/
theorem test_clampPressureOff :
    answers .clampPressureOff (clamping 3) (fun t =>
        t.fxs.marks == 0 && t.fxs.settle == 0 && t.fxs.state == .clamping && t.fxs.clampTimer == some 1000
          && t.har.announcedLevel == 0) = true
      ∧ answers .clampPressureOff (holding (station 13 .working)) (fun t =>
        t.fxs.state == .clamping && t.har.announcedCause == 20 && !t.ssv.drive) = true := by decide +kernel

theorem test_clampPressureMade : answers .clampPressureMade State.reset (fun t => t.inputs.pressure) = true := by decide +kernel

/-- Table 6-5 at 180 ms. -/
theorem test_locatorsEngaged :
    let s := station 13 .seating
    answers (.locatorsEngaged true true) { s with fxs := { Fxs.reset with release := true, stepTimer := some 9 } } (fun t =>
      t.fxs.state == .clamping && !t.fxs.release && t.fxs.clampTimer == some 2000000 && t.fxs.stepTimer == none) = true := by
  decide +kernel

/-- Table 9-3 at 300 ms, and the second locator that opens the fixture. -/
theorem test_locatorOff :
    answers (.locatorOff false true) (holding (station 12 .working)) (fun t =>
        t.har.announcedLevel == 5 && t.har.announcedCause == 5 && t.fxs.state == .secured) = true
      ∧ (let s := station 13 .releasing
        answers (.locatorOff false false) { s with
            fxs := { s.fxs with state := .opening, openingStep := .two }
            inputs := { s.inputs with locator2 := true } } (fun t => t.fxs.state == .open && t.ssv.liftState == .rising) = true) := by
  decide +kernel

theorem test_palletPresentChange :
    answers (.palletPresentChange true) State.reset (fun t => t.inputs.palletPresent) = true := by decide +kernel

theorem test_plateCodeChange :
    answers (.plateCodeChange 304) State.reset (fun t => t.inputs.plate == 304) = true := by decide +kernel

/-! The queue of commands, and time. -/

theorem test_step_runs_the_front :
    (match step { State.reset with pending := [.linkIdleSeen, .join] } with
      | .next t => t.lpt.idleSeen && t.pending == [.join]
      | _ => false) = true := by decide +kernel

/-- R20: line time advances; R93: the word that follows reset is repeated 1,000 µs after it. -/
theorem test_step_lets_time_pass :
    (match step { State.reset with ssv := { Ssv.reset with wordAge := 999 } } with
      | .next t => t.ltu.lineTime == 1 && t.pending == [.setpointWordRepeat]
      | _ => false) = true := by decide +kernel

/-- R71: an origin that line time has reached when the profile is prepared begins at once. -/
theorem test_step_begins_at_once :
    let s := station 13 .moving
    let at' (now : Nat) : State :=
      { s with pgn := s.pgn.prepareForward 1250000 204800 600 5000, ltu := { s.ltu with lineTime := BitVec.ofNat 32 now } }
    (match step (at' 5000) with | .next t => t.ltu.lineTime == 5000 && t.pending == [.profileOrigin] | _ => false) = true
      ∧ (match step (at' 4998) with | .next t => t.ltu.lineTime == 4999 && t.pending == [] | _ => false) = true := by
  decide +kernel

/-- R72: a step of line time that passes the end of a period ends it at once. -/
theorem test_step_of_line_time_ends_period :
    let s := running (station 13 .moving) 0 0 0
    let now (t : Nat) : State :=
      { s with ltu := { s.ltu with lineTime := BitVec.ofNat 32 t, nextBeat := none }, pgn := { s.pgn with stepFrom := some 81241990 } }
    (match step (now 81242000) with | .next t => t.pending == [.periodEnd] | _ => false) = true
      ∧ (match step (now 81241999) with | .next t => t.ltu.lineTime == 81242000 && t.pending == [.periodEnd] | _ => false) = true
      ∧ (match step (now 81241998) with | .next t => t.pending == [] | _ => false) = true := by decide +kernel

/-- R71: the periods of a profile prepared after the step of its microsecond, whose line time is past the end of period 2, end one microsecond
apart; so does the period after one that the step has ended. -/
theorem test_step_catches_up :
    let s := station 13 .moving
    let s := { s with ltu := { s.ltu with lineTime := 81243500, nextBeat := none }
                      pgn := { s.pgn with stepFrom := some 81240990 }.prepareForward 1250000 204800 600 81241000 }
    let r := running (station 13 .moving) 0 0 0
    let r := { r with ltu := { r.ltu with lineTime := 81243500, nextBeat := none }, pgn := { r.pgn with stepFrom := some 81241990 } }
    (match step s with | .next t => t.ltu.lineTime == 81243500 && t.pending == [.profileOrigin] | _ => false) = true
      ∧ answers .profileOrigin s (fun t => match step t with
        | .next u => u.ltu.lineTime == 81243501 && u.pending == [.periodEnd]
        | _ => false) = true
      ∧ answers .periodEnd r (fun t => match step t with
        | .next u => u.ltu.lineTime == 81243501 && u.pending == [.periodEnd]
        | _ => false) = true := by decide +kernel

/-- R178, R88, Table 11-3: the third sample in a row takes the change of a line, the home sensor at high and EMERGENCY when open; a line that
has returned begins anew, its capture discarded. -/
theorem test_step_samples_a_line :
    let s (e h : LineState) : State :=
      { State.reset with sampling := { Sampling.reset with clock := 999, emergency := e, home := h } }
    let ok (e h e' h' : LineState) (l : List Instr) : Bool := match step (s e h) with
      | .next t => t.sampling.clock == 0 && t.sampling.emergency == e' && t.sampling.home == h' && t.pending == l
      | _ => false
    ok ⟨.open, 0⟩ ⟨.high, 0⟩ ⟨.open, 1⟩ ⟨.high, 1⟩ [.homeCapture true] = true
      ∧ ok ⟨.open, 1⟩ ⟨.high, 1⟩ ⟨.open, 2⟩ ⟨.high, 2⟩ [] = true
      ∧ ok ⟨.open, 2⟩ ⟨.high, 2⟩ ⟨.open, 0⟩ ⟨.high, 0⟩ [.emergencyOn, .homeSensorChange true] = true
      ∧ ok ⟨.high, 2⟩ ⟨.low, 2⟩ ⟨.high, 0⟩ ⟨.low, 0⟩ [.homeCapture false] = true := by decide +kernel

/-- R104: one sample that takes locator 1 as on and locator 2 as off brings one event of both values, and the fixture does not clamp. -/
theorem test_step_takes_both_locators :
    let s := station 13 .seating
    let w := wired s 999
    let t := { s with fxs := { Fxs.reset with release := true, stepTimer := some 9 }, inputs := { s.inputs with locator2 := true }
                      sampling := { w.sampling with locator1 := ⟨.high, 2⟩, locator2 := ⟨.low, 2⟩ } }
    (match step t with | .next u => u.pending == [.locatorOff true false] | _ => false) = true
      ∧ answers (.locatorOff true false) t (fun u =>
        u.fxs.state == .locating && u.fxs.release && u.inputs.locator1 && !u.inputs.locator2) = true := by decide +kernel

/-- R15, R20 to R22, R32, R33, R49, R93, R111, R162, R167: every timer in its last microsecond, a beat boundary, a silence, a settle
threshold and a word one microsecond away; the fixture CLAMPING, OPENING and LOCATING. -/
theorem test_step_brings_due_events :
    let s := holding (station 13 .moving)
    let at' (f : FixtureState) : State := { s with
      lpt := { s.lpt with foreignTimer := some 1 }
      ltu := { s.ltu with lineTime := 49999 }
      peers := s.peers.set 1 { Peer.initial with silence := some 149999 }
      ixs := { s.ixs with joinTimer := some 1, liftBarrierTimer := some 1, loweringTimer := some 1, upstreamTimer := some 1 }
      ssv := { s.ssv with homingTimer := some 1, homeCheckTimer := some 1, wordWaiting := true, wordAge := 39 }
      fxs := { s.fxs with state := f, stepTimer := some 1, clampTimer := some 1, marks := 4, settle := 255999 } }
    let ok (f : FixtureState) (l : List Instr) : Bool := match step (at' f) with
      | .next t => t.pending == [.foreignFrameTimerExpiry, .beatInstant, .memberSilent 2, .joinRepetition, .liftBarrierTimerExpiry,
          .loweringTimerExpiry, .upstreamTimerExpiry, .homingTimerExpiry, .homeCheckTimerExpiry] ++ l ++ [.setpointWordEnd]
      | _ => false
    ok .clamping [.clampTimerExpiry, .settleMarkSet] = true ∧ ok .opening [.releaseStepTimerExpiry, .clampTimerExpiry] = true
      ∧ ok .locating [.locateTimerExpiry, .clampTimerExpiry] = true := by decide +kernel

/-- R104: the plate code is taken when three samples in a row give one combination. -/
theorem test_step_samples_the_plate :
    let s (l : PlateLines) : State := { State.reset with sampling := { Sampling.reset with clock := 999, plate := l } }
    let ok (l m : PlateLines) (e : List Instr) : Bool := match step (s l) with
      | .next t => t.sampling.plate == m && t.pending == e
      | _ => false
    ok ⟨304, none, 0⟩ ⟨304, some 304, 1⟩ [] = true
      ∧ ok ⟨304, some 304, 2⟩ ⟨304, none, 0⟩ [.plateCodeChange 304] = true
      ∧ ok ⟨304, some 300, 2⟩ ⟨304, some 304, 1⟩ [] = true
      ∧ ok ⟨0, some 304, 2⟩ ⟨0, none, 0⟩ [] = true := by decide +kernel

/-! Witnesses: for each statement with hypotheses, concrete states and operands that meet them, clause by clause, at the ends of
their ranges. -/

/-- R147: the levels of the cause table are legal. -/
theorem levels_of_reset {s : State} (h : s.har.causes = Har.reset.causes) : LevelsLegal s := by
  refine ⟨by rw [h]; decide, fun c => ?_⟩
  have : s.har.level c = Har.reset.level c := by simp only [Har.level, h]
  rw [this]
  cases c <;> decide

/-- A property of every record of a concrete peer table. -/
theorem all_peers {l : List Peer} {P : Peer → Prop} (h : ∀ p ∈ l, P p) (i : Nat) (p : Peer) (hp : l[i]? = some p) : P p :=
  h p (List.mem_of_getElem? hp)

/-- A property of every record but one of a concrete peer table. -/
theorem other_peers {l : List Peer} {m : Nat} {f : Peer → Bool}
    (h : ∀ i, i < l.length → i ≠ m → f (l[i]?.getD Peer.initial) = true) (i : Nat) (p : Peer) (hp : l[i]? = some p)
    (hi : i ≠ m) : f p = true := by
  have := h i (List.getElem?_eq_some_iff.mp hp).1 hi
  simpa [hp] using this

/-- The arrival of another member's frame, from facts that can be decided. -/
theorem arrives_other (s : State) (h : Header) (p : Payload) (m : Nat) (clock : FrameClock)
    (d : s.lpt.idleSeen = true ∧ s.lpt.frame = some clock ∧ wellFormedFrame h p = true ∧ s.ixs.state ≠ .offline
      ∧ h.sectionId = s.sectionId ∧ h.sender ∈ s.memberList ∧ s.memberList.idxOf h.sender = m ∧ s.lpt.buffer = none
      ∧ h.sender ≠ s.stationNo) : Arrives s h p m false clock :=
  ⟨d.1, d.2.1, d.2.2.1, d.2.2.2.1, d.2.2.2.2.1, d.2.2.2.2.2.1, d.2.2.2.2.2.2.1, d.2.2.2.2.2.2.2⟩

/-- The arrival of the station's own frame, from facts that can be decided. -/
theorem arrives_own (s : State) (h : Header) (p : Payload) (m : Nat) (clock : FrameClock) (f : QueuedFrame)
    (d : s.lpt.idleSeen = true ∧ s.lpt.frame = some clock ∧ wellFormedFrame h p = true ∧ s.ixs.state ≠ .offline
      ∧ h.sectionId = s.sectionId ∧ h.sender ∈ s.memberList ∧ s.memberList.idxOf h.sender = m
      ∧ (s.lpt.buffer = some f ∧ f.payload = p) ∧ h.sender = s.stationNo ∧ h.stamp = clock.localStart) :
    Arrives s h p m true clock :=
  ⟨d.1, d.2.1, d.2.2.1, d.2.2.2.1, d.2.2.2.2.1, d.2.2.2.2.2.1, d.2.2.2.2.2.2.1, ⟨f, d.2.2.2.2.2.2.2.1⟩, d.2.2.2.2.2.2.2.2⟩

/-- The frame clock of a frame that started at line time `t`. -/
abbrev clockAt (t : Nat) : FrameClock := ⟨BitVec.ofNat 32 t, 0⟩

/-- A state whose announced pair, section level and outputs are those that its causes and conditions give. -/
def formed (s : State) : State :=
  let u := { s with har := { s.har with announcedLevel := s.har.pair.1, announcedCause := s.har.pair.2 } }
  let v := { u with har := { u.har with sectionLevel := u.sectionLevelNow } }
  { v with pins := { machPermit := v.machPermitNow, sectionStop := v.sectionStopNow, attn := v.attnNow } }

theorem witness_StepRunsFrontCommand :
    ({ State.reset with pending := [.linkIdleSeen, .join] } : State).pending = .linkIdleSeen :: [.join] := rfl

/-- None of the events that the state itself brings about. -/
theorem no_triggers {s : State} (h0 : ¬OriginReached s) (h1 : s.pgn.stepFrom = none) (h2 : ¬HomingStarts s) (h3 : ¬FormingEnds s)
    (h4 : ¬ReadyGoes s) : ∀ x ∈ triggers, ¬x.2 s := by
  intro x hx
  simp only [triggers, List.mem_cons, List.not_mem_nil, or_false] at hx
  rcases hx with rfl | rfl | rfl | rfl | rfl
  · exact h0
  · rintro ⟨_, y, h, _⟩
    simp [h1] at h
  · exact h2
  · exact h3
  · exact h4

/-- A state in which each event of the state itself is the first to come about; a state in which none is, at the microsecond of the samples
and before it; a line with its third sample, the two locators at once, and a combination of the plate code; every timer, a beat boundary, a
silence and the repeated word one microsecond away, with a fixture in each state of the step timer; and an origin, the end of a common period
and of a local one, a local start, a settle mark and a waiting word one microsecond away. -/
theorem witness_EmptyQueuePassesOneMicrosecond :
    let o := { station 13 .moving with pgn := Pgn.reset.prepareForward 1250000 204800 600 0 }
    let p := { running (station 13 .moving) 0 0 0 with
      ltu := { (station 13 .moving).ltu with lineTime := 81242000 }
      pgn := { (running (station 13 .moving) 0 0 0).pgn with stepFrom := some 81241990 } }
    let s (k : Nat) : State :=
      { State.reset with sampling := { Sampling.reset with
          clock := k, home := ⟨.high, 2⟩, driveFault := ⟨.open, 2⟩, locator1 := ⟨.high, 2⟩, locator2 := ⟨.high, 1⟩
          plate := ⟨304, some 304, 2⟩ } }
    let due (f : FixtureState) : State := { State.reset with
      lpt := { Lpt.reset with foreignTimer := some 1 }, ltu := { Ltu.reset with nextBeat := some 1 }
      peers := [{ Peer.initial with silence := some 149999 }]
      ixs := { Ixs.reset with joinTimer := some 1, liftBarrierTimer := some 1, loweringTimer := some 1, upstreamTimer := some 1 }
      ssv := { Ssv.reset with homingTimer := some 1, homeCheckTimer := some 1, wordAge := 999 }
      fxs := { Fxs.reset with state := f, stepTimer := some 1, clampTimer := some 1 } }
    let m (g : Pgn) (now : Nat) : State := { holding (station 13 .moving) with
      pgn := g, ltu := { (station 13 .moving).ltu with lineTime := BitVec.ofNat 32 now }
      ssv := { (station 13 .moving).ssv with wordWaiting := true, wordAge := 39 }
      fxs := { (holding (station 13 .moving)).fxs with marks := 4, settle := 255999 } }
    let common := Pgn.reset.prepareForward 1250000 204800 600 5000
    let moveG := { Pgn.reset.prepareMove .ret 1250000 0 204800 600 0 with localTimer := some 1 }
    (o.pending = [] ∧ OriginReached o) ∧ (p.pending = [] ∧ StepEndsPeriod p ∧ ¬OriginReached p)
      ∧ (HomingStarts (unhomed false) ∧ ¬OriginReached (unhomed false) ∧ ¬PeriodRuns (unhomed false))
      ∧ (FormingEnds (station 13 .forming) ∧ ¬OriginReached (station 13 .forming) ∧ ¬PeriodRuns (station 13 .forming)
        ∧ ¬HomingStarts (station 13 .forming))
      ∧ (ReadyGoes (station 12 .working) ∧ ¬OriginReached (station 12 .working) ∧ ¬PeriodRuns (station 12 .working)
        ∧ ¬HomingStarts (station 12 .working) ∧ ¬FormingEnds (station 12 .working))
      ∧ (∀ k ∈ [0, 998, 999], (s k).pending = [] ∧ ∀ x ∈ triggers, ¬x.2 (s k))
      ∧ ((s 998).sampling.clock < 999 ∧ 999 ≤ (s 999).sampling.clock)
      ∧ (∀ f ∈ [FixtureState.opening, .locating, .clamping], (due f).pending = [] ∧ ∀ x ∈ triggers, ¬x.2 (due f))
      ∧ ∀ x ∈ [(common, 4999), ({ common with phase := .running, begun := true }, 5999),
          ({ common with phase := .running, begun := true }, 7000), (moveG, 5000), ({ moveG with phase := .running, begun := true }, 5000)],
        (m x.1 x.2).pending = [] ∧ ∀ y ∈ triggers, ¬y.2 (m x.1 x.2) := by
  intro o p s due m common moveG
  refine ⟨⟨rfl, by unfold OriginReached Reached; decide +kernel⟩,
    ⟨rfl, ⟨by unfold PeriodRuns; decide +kernel, 81241990, rfl, by unfold PeriodOver Reached; decide +kernel,
      by unfold PeriodOver Reached; decide +kernel⟩, by unfold OriginReached Reached; decide +kernel⟩,
    by unfold HomingStarts OriginReached Reached PeriodRuns; decide +kernel,
    by unfold FormingEnds OriginReached Reached PeriodRuns HomingStarts; decide +kernel,
    by unfold ReadyGoes OriginReached Reached PeriodRuns HomingStarts FormingEnds; decide +kernel, fun k hk => ⟨rfl, no_triggers ?_ rfl ?_ ?_ ?_⟩,
    by decide +kernel, fun f hf => ⟨rfl, no_triggers ?_ rfl ?_ ?_ ?_⟩,
    fun x hx => ⟨rfl, no_triggers ?_ (by revert x; decide +kernel) ?_ ?_ ?_⟩⟩
  · unfold OriginReached Reached; revert k; decide +kernel
  · unfold HomingStarts; revert k; decide +kernel
  · unfold FormingEnds; revert k; decide +kernel
  · unfold ReadyGoes; revert k; decide +kernel
  · unfold OriginReached Reached; revert f; decide +kernel
  · unfold HomingStarts; revert f; decide +kernel
  · unfold FormingEnds; revert f; decide +kernel
  · unfold ReadyGoes; revert f; decide +kernel
  · unfold OriginReached Reached; revert x; decide +kernel
  · unfold HomingStarts; revert x; decide +kernel
  · unfold FormingEnds; revert x; decide +kernel
  · unfold ReadyGoes; revert x; decide +kernel

/-- Both ends of each item's range. -/
theorem witness_SetItemStoresHeldForm :
    State.reset.ixs.state = .offline ∧ State.reset.har.causes.length = 24
      ∧ (∀ x ∈ [(8, 1, 63), (8, 1, 15), (32, 400000, 2500000), (16, 100, 2000), (16, 64, 2048), (16, 64, 4096), (8, 5, 100),
          (16, 500, 20000), (16, 50, 2000), (8, 1, 7), (16, 100, 10000), (8, 0, 7)],
        ∀ v ∈ [x.2.1, x.2.2], x.2.1 ≤ (BitVec.ofNat x.1 v).toNat ∧ (BitVec.ofNat x.1 v).toNat ≤ x.2.2)
      ∧ ∀ l ∈ [[1#8, 63#8], List.replicate 16 1#8], 2 ≤ l.length ∧ l.length ≤ 16 ∧ ∀ b ∈ l, 1 ≤ b.toNat ∧ b.toNat ≤ 63 := by
  decide +kernel

/-- A state of JOIN given too early or too late, values one outside the range of their item, and lists that lack the station or
name it twice. -/
theorem witness_ConfigurationRefusedInOrder :
    (station 12 .forming).ixs.state ≠ .offline ∧ State.reset.ixs.state = .offline
      ∧ (¬InItemRange (.stationNumber 0) ∧ ¬InItemRange (.stationNumber 64) ∧ ¬InItemRange (.pitch 399999)
        ∧ ¬InItemRange (.pitch 2500001) ∧ ¬InItemRange (.members [12]) ∧ ¬InItemRange (.causeLevel 24 7)
        ∧ ¬InItemRange (.causeLevel 23 8) ∧ ¬InItemRange (.unknown 17 []))
      ∧ State.reset.items.stationNumber = none
      ∧ ((sectionItems 15).stationNumber = some 15 ∧ (sectionItems 15).sectionId = some 1
        ∧ (sectionItems 15).pitch = some 1250000 ∧ (sectionItems 15).members = some [11, 12, 13, 14]
        ∧ 15 ∉ [11, 12, 13, 14] ∧ ¬[12, 12].Nodup) := by
  refine ⟨by decide, by decide, ?_, rfl, by decide⟩
  simp only [InItemRange]
  decide

/-- With the pallet absent and present, the fixture in each of its states. -/
theorem witness_JoinFormsTheStation :
    ∀ b ∈ [false, true], ∀ fx ∈ [FixtureState.open, .opening, .locating, .clamping, .secured],
      let s := { State.reset with items := sectionItems 13, inputs := { Inputs.reset with palletPresent := b }
                                  fxs := { Fxs.reset with state := fx } }
      s.ixs.state = .offline ∧ LevelsLegal s ∧ OfflineQuiet s ∧ PairAnnounced s ∧ s.ltu.step ≠ .fine
        ∧ s.items.stationNumber = some 13 ∧ s.items.sectionId = some 1 ∧ s.items.pitch = some 1250000
        ∧ s.items.members = some [11, 12, 13, 14] ∧ 13 ∈ [11, 12, 13, 14] ∧ [11, 12, 13, 14].Nodup := by
  intro b _ fx _ s
  refine ⟨rfl, levels_of_reset rfl, fun _ => ?_, ?_, by show StepState.none ≠ .fine; decide, rfl, rfl, rfl, rfl, by decide, by decide⟩
  · show (∀ e ∈ State.reset.har.causes, e.pending = false) ∧ State.reset.ssv.drive = false ∧ State.reset.peers = []
    decide +kernel
  · unfold PairAnnounced
    show (State.reset.har.announcedLevel, State.reset.har.announcedCause) = State.reset.har.pair
    decide +kernel

/-- Setpoints at both ends of an octet field of four. -/
theorem witness_StatusAndCausesRead :
    let s (x : Int) : State := { State.reset with pgn := { Pgn.reset with setpoint := x } }
    (∀ x ∈ [(-2147483648 : Int), 2147483647], -2147483648 ≤ (s x).pgn.setpoint ∧ (s x).pgn.setpoint ≤ 2147483647) := by
  decide +kernel

/-- A section of the stations 1 and 63, at station 63. -/
theorem witness_RecordsImageAndPeersRead :
    let s := { station 12 .working with
      items := { sectionItems 63 with members := some [1, 63] }, peers := [Peer.initial, Peer.initial] }
    s.ixs.state ≠ .offline ∧ s.isLoad = false
      ∧ (1 ≤ (1#8).toNat ∧ (1#8).toNat ≤ 63 ∧ s.memberList.idxOf (1#8).toNat = 0 ∧ s.peers[0]? = some Peer.initial)
      ∧ (1 ≤ (63#8).toNat ∧ (63#8).toNat ≤ 63 ∧ s.memberList.idxOf (63#8).toNat = 1 ∧ s.peers[1]? = some Peer.initial) := by
  decide +kernel

theorem witness_RequestsRefused :
    State.reset.ixs.state = .offline ∧ (station 11 .working).isLoad = true
      ∧ ((0#8).toNat = 0 ∧ 63 < (64#8).toNat ∧ 1 ≤ (1#8).toNat ∧ (63#8).toNat ≤ 63)
      ∧ ((station 12 .working).ixs.state ≠ .offline ∧ (station 12 .working).peers.length = (station 12 .working).memberCount
        ∧ (15#8).toNat ∉ (station 12 .working).memberList)
      ∧ (23 < (24#8).toNat ∧ 127 < (128#8).toNat ∧ 3 < (4#8).toNat)
      ∧ Condition (unsure (station 12 .working)) .palletIdentity
      ∧ ((holding (station 12 .ready)).ixs.state ≠ .working ∧ (station 12 .working).rst.status ≠ .held)
      ∧ ((unsure (station 12 .ready)).ixs.state ∉ [.forming, .working, .seating]
        ∧ (unsure (station 12 .working)).inputs.palletPresent = true ∧ (station 12 .working).rst.status ≠ .unknown)
      ∧ (station 13 .working).isUnload = false ∧ (station 12 .working).ixs.state ≠ .stopped
      ∧ (let s := (stoppedAt 0 .stopped)
        let t := { s with har := s.har.setPending .driveFault true }
        t.ixs.state = .stopped ∧ t.har.stopPending = true) := by unfold Condition; decide +kernel

/-- A response of 12 fields is read in 17 octets and not in 16. -/
theorem witness_TransactionsWithoutRequest :
    let s := { State.reset with cpt := { Cpt.reset .powerOn with response := some ⟨13, .done, recordOctets pallet302⟩ } }
    s.cpt.response = some ⟨13, .done, recordOctets pallet302⟩ ∧ 5 + (recordOctets pallet302).length = 17
      ∧ (16 < 17 ∧ s.cpt.responseRead = false) ∧ State.reset.cpt.response = none := by decide +kernel

/-- A latched cause that is pending, and one that clears itself. -/
theorem witness_ClearCauseTaken :
    let s := identityPending (holding (station 12 .working))
    s.ixs.state ≠ .offline ∧ s.har.causes.length = 24 ∧ ¬Condition s .palletIdentity
      ∧ Cause.palletIdentity.latched = true ∧ s.har.isPending .palletIdentity = true
      ∧ ¬Condition s .foreignFrame ∧ Cause.foreignFrame.latched = false := by unfold Condition; decide +kernel

/-- The cause `c` pending alone, at level 7, with the shuttle HALTED, from facts that can be decided. -/
theorem lastOfSeven_of {s : State} {c : Cause} (h : s.ixs.state ≠ .offline ∧ CausesSettled s ∧ s.har.causes.length = 24
    ∧ s.har.isPending c = true ∧ s.har.level c = 7 ∧ s.ssv.shuttle = .halted)
    (d : Cause.all.all (fun d => d == c || !(s.har.isPending d && s.har.level d == 7)) = true) : LastOfSeven s c := by
  refine ⟨h.1, h.2.1, h.2.2.1, h.2.2.2.1, h.2.2.2.2.1, fun e he hp hl => ?_, h.2.2.2.2.2⟩
  have := List.all_eq_true.mp d e (by cases e <;> decide)
  simp [he, hp, hl] at this

/-- Each row of Table 5-4, the counts 0 and 1 of the return among them, with DRIVE_FAULT; each self-clearing cause of the rule at level 7,
also in LOWERING. -/
theorem witness_LastLevelSevenCauseRestarts :
    let s := station 13 .working
    let t (from' : ShuttleState) (x : Nat) (use : Option RepositionUse) : State :=
      { s with har := s.har.setPending .driveFault true
               ssv := { s.ssv with shuttle := .halted, haltedFrom := some from', drive := false, encoder := BitVec.ofNat 32 x
                                   repositionUse := use } }
    let u (s : State) (c : Cause) : State :=
      { s with har := { s.har with causes := s.har.causes.set c.number ⟨7, true⟩ }
               ssv := { s.ssv with shuttle := .halted, haltedFrom := some .atEnd, drive := false } }
    (∀ f ∈ [ShuttleState.atHome, .returning, .atEnd, .repositioning, .unhomed, .homing, .forward, .stopping, .haltedMid],
      ∀ x ∈ [0, 1], ∀ use ∈ [some RepositionUse.toPitch, some .toStop],
        LastOfSeven (t f x use) .driveFault ∧ Cause.driveFault.latched = true ∧ ¬Condition (t f x use) .driveFault
          ∧ (t f x use).ssv.haltedFrom = some f ∧ (t f x use).ssv.encoder.toInt = (x : Int) ∧ (t f x use).ssv.repositionUse = use)
    ∧ (∀ st ∈ [SeqState.working, .lowering],
      (let b := station 13 st
        let a := u { b with lpt := { b.lpt with foreignTimer := some 0 } } Cause.foreignFrame
        LastOfSeven a .foreignFrame ∧ EndsCondition .foreignFrameTimerExpiry .foreignFrame a)
      ∧ (let a := holding (station 14 st)
        let b := u { a with rst := { a.rst with exitQueue := List.replicate 4 pallet302 } } .exitQueueFull
        LastOfSeven b .exitQueueFull ∧ EndsCondition .takeExitRecord .exitQueueFull b)
      ∧ (let a := station 13 st
        let q : Ltu := { a.ltu with step := .none, coarseRun := 31, fineRun := 31, samples := [⟨2, 25⟩, ⟨3, -25⟩] }
        let b := u { a with ltu := q } .notInStep
        LastOfSeven b .notInStep ∧ EndsCondition .beatInstant .notInStep b)
      ∧ (let a := receiving (station 13 st) 0
        let b := u { a with peers := a.peers.set 1 { Peer.initial with silence := some 150000, matched := .yes } } .peerSilent
        LastOfSeven b .peerSilent ∧ EndsCondition (.holdObserved (head 12 0) 4 3) .peerSilent b)
      ∧ (let a := receiving (station 13 st) 0
        let b := u { a with peers := a.peers.set 1 { Peer.initial with matched := .no } } .profileMismatch
        LastOfSeven b .profileMismatch ∧ EndsCondition (.joinObserved (head 12 0) joinFields) .profileMismatch b))
    ∧ (let a := unsure (station 13 .working)
      let b := u { a with inputs := { a.inputs with palletPresent := false } } .fixtureUnknown
      LastOfSeven b .fixtureUnknown ∧ EndsCondition .declareEmpty .fixtureUnknown b) := by
  intro s t u
  refine ⟨fun f hf x hx use hu => ⟨lastOfSeven_of ?_ ?_, rfl, ?_, rfl, ?_, rfl⟩, fun st hst => ⟨?_, ?_, ?_, ?_, ?_⟩, ?_⟩
  · unfold CausesSettled; revert f x use; decide +kernel
  · revert f x use; decide +kernel
  · show ¬(s.inputs.driveFault = true); decide
  · revert f x use; decide +kernel
  · refine ⟨lastOfSeven_of (by unfold CausesSettled; revert st; decide +kernel) (by revert st; decide +kernel), .inl ⟨rfl, rfl⟩⟩
  · refine ⟨lastOfSeven_of (by unfold CausesSettled; revert st; decide +kernel) (by revert st; decide +kernel),
      .inr (.inl ⟨rfl, rfl, rfl⟩)⟩
  · refine ⟨lastOfSeven_of (by unfold CausesSettled; revert st; decide +kernel) (by revert st; decide +kernel),
      .inr (.inr (.inr (.inl ⟨rfl, rfl, by revert st; decide +kernel⟩)))⟩
  · refine ⟨lastOfSeven_of (by unfold CausesSettled; revert st; decide +kernel) (by revert st; decide +kernel),
      .inr (.inr (.inr (.inr (.inl ⟨rfl, head 12 0, 4, 3, 1, clockAt 0, rfl,
        arrives_other _ _ _ _ _ (by revert st; decide +kernel), fun j p hj hp us hs => ?_⟩))))⟩
    have := other_peers (f := fun p => p.silence.all (· < 150000)) (by clear hp; revert st; decide +kernel) j p hp hj
    simpa [hs] using this
  · refine ⟨lastOfSeven_of (by unfold CausesSettled; revert st; decide +kernel) (by revert st; decide +kernel),
      .inr (.inr (.inr (.inr (.inr ⟨rfl, head 12 0, joinFields, 1, clockAt 0, rfl,
        arrives_other _ _ _ _ _ (by revert st; decide +kernel), rfl, by revert st; decide +kernel, fun j p hj hp => ?_⟩))))⟩
    have := other_peers (f := fun p => p.matched != .no) (by clear hp; revert st; decide +kernel) j p hp hj
    simpa using this
  · refine ⟨lastOfSeven_of (by unfold CausesSettled; decide +kernel) (by decide +kernel), .inr (.inr (.inl ⟨rfl, rfl, rfl, .inr (.inl rfl)⟩))⟩

theorem witness_AttnFollowsMask : (0#8).toNat ≤ 127 ∧ (127#8).toNat ≤ 127 := by decide

/-- The records of the two pallets may be loaded; no octets are a record. At the load station and at another one a record is loaded
by its plate code, and another plate code refuses it. -/
theorem witness_LoadDecided :
    (¬∃ r, Loadable r ∧ recordOctets r = []) ∧ Loadable pallet304
      ∧ (∀ code ∈ [304#10, 303#10], ∀ fx ∈ [FixtureState.open, .opening, .locating, .clamping, .secured],
        let s := station 11 .working
        let t := { s with inputs := { s.inputs with palletPresent := true, plate := code }, fxs := { s.fxs with state := fx } }
        t.isLoad = true ∧ t.ixs.state = .working ∧ t.rst.status = .empty ∧ t.inputs.palletPresent = true
          ∧ (t.peers[t.ownIdx]?.map Peer.ready) = some false ∧ t.lpt.holds (ofKind .ready) = false)
      ∧ (∀ fx ∈ [FixtureState.open, .opening, .locating, .clamping, .secured],
        let u := unsure (station 12 .working)
        let s := { u with fxs := { u.fxs with state := fx } }
        s.ixs.state = .working ∧ s.rst.status = .unknown ∧ s.inputs.palletPresent = true
          ∧ s.inputs.plate.toNat = pallet302.id ∧ s.inputs.plate.toNat ≠ pallet304.id)
      ∧ State.reset.ixs.state ≠ .working := by
  refine ⟨?_, ?_, by decide +kernel⟩
  · rintro ⟨r, _, h⟩
    have : (recordOctets r).length = 0 := by rw [h]; rfl
    simp [recordOctets, octets] at this
  · unfold Loadable; decide +kernel

/-- In each sequencer state and fixture state, with the pressure made, off, and off with both locators off; SEATING that waits for the
fixture. -/
theorem witness_DeclareEmptyTaken :
    ∀ st ∈ [SeqState.forming, .working, .seating], ∀ fx ∈ [FixtureState.open, .opening, .locating, .clamping, .secured],
      ∀ x ∈ [(true, true), (false, true), (false, false)],
      let s := unsure (station 13 st)
      let t := { s with inputs := { s.inputs with palletPresent := false, pressure := x.1, locator1 := x.2, locator2 := x.2 }
                        fxs := { s.fxs with state := fx }, ixs := { s.ixs with step := .seat } }
      (t.ixs.state = .forming ∨ t.ixs.state = .working ∨ t.ixs.state = .seating) ∧ t.rst.status = .unknown
        ∧ t.inputs.palletPresent = false
        ∧ (fx = .clamping → x = (false, false) → (Opens t).state = .open) := by decide +kernel

theorem witness_ResultAndExitRecordTaken :
    (holding (station 12 .working)).ixs.state = .working ∧ (holding (station 12 .working)).rst.status = .held
      ∧ (let s := station 14 .working
        let t := { s with rst := { s.rst with exitQueue := [pallet302, pallet304] } }
        t.ixs.state ≠ .offline ∧ t.isUnload = true ∧ t.rst.exitQueue = pallet302 :: [pallet304] ∧ s.rst.exitQueue = []) := by
  decide +kernel

/-- At INPOS_WINDOW and one beyond it, HALTED_MID, HALTED and in the reposition of an earlier RESUME. -/
theorem witness_ResumeTaken :
    let s (e : Nat) (st : ShuttleState) : State :=
      let s := stoppedAt e .stopped
      { s with ssv := { s.ssv with shuttle := st } }
    (∀ e ∈ [200, 201], ∀ st ∈ [ShuttleState.haltedMid, .halted, .repositioning], (s e st).ixs.state = .stopped
      ∧ (s e st).har.stopPending = false ∧ (s e st).ssv.shuttle = st ∧ (s e st).pgn.stopPosition = some 129389600
      ∧ ((s e st).ssv.encoder.toInt - ((129389600 / 256 : Nat) : Int)).natAbs = e ∧ (s e st).items.inposWindow = 200)
    ∧ CausesSettled (s 201 .halted) := by unfold CausesSettled; decide +kernel

/-- A queue of HOLD and BEAT. -/
def twoFrames : Lpt := (Lpt.reset.enqueue (.beat .fine)).enqueue (.hold 4 3)

theorem witness_QueueReplacesKind :
    twoFrames.queue.Pairwise (fun a b => a.payload.kind.priority < b.payload.kind.priority) ∧ twoFrames.queue.length = 2 := by
  decide +kernel

theorem witness_FrameStarts :
    let s := { station 12 .working with lpt := { twoFrames with idleSeen := true } }
    s.lpt.idleSeen = true ∧ s.lpt.frame = none ∧ s.lpt.queue = ⟨1, .hold 4 3⟩ :: [⟨0, .beat .fine⟩] := by decide +kernel

/-- A frame of another station, also one out of range, an own frame that is not the counted one, and one marked 14 times; observed beside the
own attempt, a frame out of range, three that differ from it, and one of a lower identifier in range and out of it. -/
theorem witness_UnobservedAttemptGoesBack :
    let s := sending (station 13 .working) (.hold 4 3) 0
    let t := { s with lpt := { s.lpt with counted := some 7, count := 14 } }
    ((receiving (station 13 .working) 0).lpt.buffer = none ∧ (receiving (station 13 .working) 0).lpt.frame ≠ none
        ∧ (receiving (station 13 .working) 0).lpt.idleSeen = true ∧ (station 13 .working).lpt.buffer = none)
      ∧ (s.lpt.buffer = some ⟨7, .hold 4 3⟩ ∧ s.lpt.frame ≠ none ∧ s.lpt.counted ≠ some 7)
      ∧ (t.lpt.buffer = some ⟨7, .hold 4 3⟩ ∧ t.lpt.frame ≠ none ∧ t.lpt.counted = some 7 ∧ t.lpt.count < 15)
      ∧ (s.lpt.idleSeen = true ∧ s.lpt.frame = some (clockAt 0)
        ∧ (let sent : Frame := ⟨⟨s.sectionId, s.stationNo, 0⟩, .hold 4 3⟩
          (frameInRange ⟨⟨0, 13, 0⟩, .hold 4 3⟩ = false ∧ frameIdentifier sent ≤ frameIdentifier ⟨⟨0, 13, 0⟩, .hold 4 3⟩)
            ∧ (frameInRange ⟨head 12 0, .ready ⟨7, 302, 16, .good, .held⟩⟩ = false
              ∧ frameIdentifier ⟨head 12 0, .ready ⟨7, 302, 16, .good, .held⟩⟩ < frameIdentifier sent)
            ∧ (∀ g ∈ [⟨head 13 0, .hold 5 3⟩, ⟨head 14 0, .hold 4 3⟩, ⟨head 13 1, .hold 4 3⟩],
              g ≠ sent ∧ frameIdentifier sent ≤ frameIdentifier g)
            ∧ frameInRange ⟨head 12 0, .hold 5 3⟩ = true ∧ frameIdentifier ⟨head 12 0, .hold 5 3⟩ < frameIdentifier sent)) := by
  decide +kernel

/-- Each kind of the rules, marked 15 times, in the state of its rule; a HANDOVER in MOVING, and in the wait of LOWERING at the load
station, with the upstream member lowered, and one microsecond before LOWER_TIMEOUT and at it. -/
theorem witness_SixteenthMarkRemoves :
    let out (s : State) (p : Payload) : State :=
      let u := sending s p 0
      { u with lpt := { u.lpt with counted := some 7, count := 15 }, rst := { u.rst with outgoing := some ⟨40, none, .queued⟩ } }
    let lowering (n k : Nat) (up : Option IndexNo) : State :=
      let s := station n .lowering
      { s with ixs := { s.ixs with index := 41, step := .handover, sinceCompletion := k }, ssv := { s.ssv with shuttle := .atEnd }
               peers := s.peers.map fun p => { p with lastLowered := up } }
    let r := stoppedAt 0 .resumeWait
    (∀ x ∈ [(station 13 .moving, Payload.hold 4 3), (station 13 .moving, .lowered 39), (station 13 .liftWait, .lifted 40),
        (r, .resume 40 505428), (station 13 .ready, .ready ⟨40, 0, 0, .good, .empty⟩), (station 13 .moving, .stop 40 13 6),
        (station 13 .moving, .handover 40 none), (lowering 11 0 none, .handover 40 none), (lowering 13 0 (some 40), .handover 40 none),
        (lowering 13 1999999 none, .handover 40 none), (lowering 13 2000000 none, .handover 40 none)],
      let t := out x.1 x.2
      t.lpt.frame ≠ none ∧ t.lpt.buffer = some ⟨7, x.2⟩ ∧ t.lpt.counted = some 7 ∧ t.lpt.count = 15
        ∧ t.ixs.state ≠ .offline ∧ t.rst.outgoing = some ⟨40, none, .queued⟩ ∧ t.har.announcedLevel = 0
        ∧ t.har.causes = Har.reset.causes ∧ (t.har.announcedLevel, t.har.announcedCause) = t.har.pair
        ∧ t.har.level .lineTransmitFailure ≠ 7)
    ∧ (∀ s : State, s.har.causes = Har.reset.causes → LevelsLegal s) ∧ CausesSettled (out (station 13 .moving) (.stop 40 13 6))
    ∧ r.ixs.state = .resumeWait ∧ r.pgn.stopPosition = some 129389600
    ∧ (let s := lowering 11 0 none
      s.isLoad = true ∧ s.indexMade = 40 ∧ s.ixs.state = .lowering ∧ s.ixs.step = .handover ∧ s.ssv.liftState = .down)
    ∧ (lowering 13 0 (some 40)).isLoad = false ∧ (lowering 13 0 (some 40)).upstreamLowered = true
    ∧ (lowering 13 0 none).upstreamLowered = false ∧ ((lowering 13 0 none).items.lowerTimeout + 9) / 10 * 10000 = 2000000
    ∧ CausesSettled (out (lowering 13 1999999 none) (.handover 40 none)) := by
  intro out lowering r
  refine ⟨by decide +kernel, fun _ => levels_of_reset, ?_, by decide +kernel, by decide +kernel, by decide +kernel, by decide +kernel,
    by decide +kernel, by decide +kernel, by decide +kernel, ?_⟩ <;> unfold CausesSettled <;> decide +kernel

/-- A frame in OFFLINE; frames of another section, of a station that is no member, and of the station's own number. -/
theorem witness_ForeignFrameTimed :
    let s := receiving (station 12 .working) 0
    (let o := receiving State.reset 0
      let q := { o with lpt := { o.lpt with idleSeen := true } }
      q.ixs.state = .offline ∧ q.lpt.idleSeen = true ∧ q.lpt.frame ≠ none ∧ q.lpt.buffer = none
        ∧ frameInRange ⟨head 12 0, .lifted 40⟩ = true)
      ∧ LevelsLegal s ∧ s.ixs.state ≠ .offline ∧ s.lpt.idleSeen = true ∧ s.lpt.frame = some (clockAt 0) ∧ s.lpt.buffer = none
      ∧ frameInRange ⟨⟨2, 13, 0⟩, .beat .none⟩ = true ∧ 2 ≠ s.sectionId ∧ frameInRange ⟨⟨1, 63, 0⟩, .beat .none⟩ = true
      ∧ 63 ∉ s.memberList ∧ frameInRange ⟨⟨1, 12, 0⟩, .beat .none⟩ = true ∧ 12 = s.stationNo
      ∧ 1 ≤ s.har.level .foreignFrame
      ∧ ({ s.lpt with foreignTimer := some 0 } : Lpt).foreignTimer ≠ none :=
  ⟨by decide +kernel, levels_of_reset rfl, by decide +kernel⟩

/-- BEAT of another member with two samples of it in the list, and BEAT of the station. -/
theorem witness_BeatGivesSample :
    let s := receiving (station 12 .working) 1000
    Arrives { s with ltu := { s.ltu with samples := [⟨2, 5⟩, ⟨2, 6⟩] } } (head 13 1021) (.beat .fine) 2 false (clockAt 1000)
      ∧ Arrives (sending (station 12 .working) (.beat .fine) 1000) (head 12 1000) (.beat .fine) 1 true (clockAt 1000) :=
  ⟨arrives_other _ _ _ _ _ (by decide +kernel), arrives_own _ _ _ _ _ ⟨7, .beat .fine⟩ (by decide +kernel)⟩

/-- JOIN of a working and of a forming member in WORKING, READY and FORMING, at the same and at another index, the announced level 0. -/
theorem witness_JoinObserved :
    (∀ st ∈ [SeqState.forming, .working, .ready], ∀ forming ∈ [true, false], ∀ n ∈ [40, 42],
      let f := { joinFields with forming := forming, index := BitVec.ofNat 16 n }
      let s := receiving (station 12 st) 0
      Arrives s (head 13 0) (.join f) 2 false (clockAt 0)
        ∧ ¬(s.ixs.state = .seating ∧ s.ixs.step = .upstream ∧ 2 + 1 = s.ownIdx)
        ∧ s.har.causes.length = 24 ∧ PairAnnounced s ∧ s.har.announcedLevel ≤ 3) := by
  intro st hst b hb n hn f s
  unfold PairAnnounced
  refine ⟨arrives_other _ _ _ _ _ ?_, ?_⟩ <;> revert st b n <;> decide +kernel

/-- READY at station 11 of Table 8-4: a contradiction, an agreement, another index. -/
theorem witness_ReadyMarksAndWritesImage :
    let s := station 11 .working
    let t := receiving { s with ixs := { s.ixs with index := 42 }, sim := image42 } 0
    Arrives t (head 13 0) (.ready ⟨42, 0, 0, .good, .empty⟩) 2 false (clockAt 0)
      ∧ Arrives t (head 13 0) (.ready ⟨41, 0, 0, .good, .empty⟩) 2 false (clockAt 0)
      ∧ Arrives t (head 13 0) (.ready ⟨42, 301, 3, .good, .held⟩) 2 false (clockAt 0)
      ∧ t.sim.slots[2]? = some (.pallet 301 3 .good) ∧ t.ixs.index = 42 ∧ LevelsLegal t
      ∧ Contradicts 2 ⟨42, 0, 0, .good, .empty⟩ (.pallet 301 3 .good)
      ∧ ¬Contradicts 2 ⟨42, 301, 3, .good, .held⟩ (.pallet 301 3 .good)
      ∧ ¬∀ (i : Nat) (p : Peer), t.peers[i]? = some p → i ≠ 2 → p.ready = true := by
  intro s t
  refine ⟨arrives_other _ _ _ _ _ (by decide +kernel), arrives_other _ _ _ _ _ (by decide +kernel),
    arrives_other _ _ _ _ _ (by decide +kernel), rfl, rfl, levels_of_reset rfl, .inl rfl, ?_, ?_⟩
  · simp [Contradicts]
  · intro h
    exact absurd (h 0 { Peer.initial with matched := .yes } (by decide +kernel) (by decide)) (by decide)

/-- The last READY in READY and in WORKING, with the fixture OPEN and the lift in each state, at an announced level of 6 and with MACH_CLEAR
off or on; it agrees with its slot of the image, or contradicts it. -/
theorem witness_ReadyBarrierReleases :
    ∀ st ∈ [SeqState.ready, .working], ∀ old ∈ [Slot.unknown, .pallet 301 3 .good], ∀ l ∈ [LiftState.down, .falling, .rising, .up],
      ∀ clear ∈ [true, false],
      let s := markedBut 2 (fun p => { p with ready := true }) (station 12 st)
      let t := receiving { s with har := { s.har.setPending .lowerFault true with announcedLevel := 6, announcedCause := 16 }
                                  inputs := { s.inputs with machClear := clear }, sim := ⟨[old, old, old, old], .unknown⟩
                                  ssv := { s.ssv with liftState := l } } 0
      let u := { t with peers := t.peers.map fun p => { p with ready := true, lastLowered := none } }
      Arrives t (head 13 0) (.ready ⟨40, 0, 0, .good, .empty⟩) 2 false (clockAt 0) ∧ (40#16) = t.ixs.index
        ∧ (t.ixs.state = .ready ∨ t.ixs.state = .working) ∧ LevelsLegal t ∧ PairAnnounced t
        ∧ (∀ (i : Nat) (p : Peer), t.peers[i]? = some p → i ≠ 2 → p.ready = true)
        ∧ 6 ≤ t.har.announcedLevel ∧ t.inputs.machClear = clear ∧ t.har.isPending .machIntrusion = false ∧ CausesSettled u
        ∧ (Opens t).state = .open ∧ t.ssv.liftState = l
        ∧ t.sim.slots[2]? = some old
        ∧ (Contradicts 2 ⟨40, 0, 0, .good, .empty⟩ old ↔ old ≠ .unknown) := by
  have hl : ∀ c : Cause, c.floor ≤ (Har.reset.setPending .lowerFault true).level c
      ∧ (Har.reset.setPending .lowerFault true).level c ≤ 7 := fun c => by cases c <;> decide +kernel
  intro st hst old ho l hli clear hc s t u
  refine ⟨arrives_other _ _ _ _ _ ?_, ?_, ?_, ⟨?_, hl⟩, ?_, other_peers ?_, ?_, rfl, ?_, ?_, ?_, rfl, rfl, ?_⟩
  all_goals first
    | unfold PairAnnounced; revert st old l clear; decide +kernel
    | unfold CausesSettled; revert st old l clear; decide +kernel
    | revert st old l clear; decide +kernel
    | (simp only [List.mem_cons, List.not_mem_nil, or_false] at ho; rcases ho with rfl | rfl <;> simp [Contradicts])

/-- LIFTED of station 12 at station 13: the completing one at the announced levels 6 and 7, one of two missing, and one out of
RELEASING and LIFT_WAIT. -/
theorem witness_LiftedMarksAndMoves :
    (∀ k ∈ [6, 7],
      let u := receiving (markedBut 1 (fun p => { p with lifted := true }) (station 13 .liftWait)) 0
      let s := { u with har := { u.har with announcedLevel := k } }
      Arrives s (head 12 81236417) (.lifted 40) 1 false (clockAt 0) ∧ s.ixs.state = .liftWait ∧ (40#16) = s.ixs.index
        ∧ (∀ (j : Nat) (p : Peer), s.peers[j]? = some p → j ≠ 1 → p.lifted = true) ∧ s.har.announcedLevel = k)
      ∧ (let t := receiving (station 13 .releasing) 0
        Arrives t (head 12 81236417) (.lifted 40) 1 false (clockAt 0) ∧ t.ixs.state = .releasing)
      ∧ (let t := receiving (station 13 .working) 0
        Arrives t (head 12 81236417) (.lifted 40) 1 false (clockAt 0) ∧ t.ixs.state = .working) := by
  refine ⟨fun k hk => ?_, ⟨arrives_other _ _ _ _ _ (by decide +kernel), rfl⟩, ⟨arrives_other _ _ _ _ _ (by decide +kernel), rfl⟩⟩
  simp only [List.mem_cons, List.not_mem_nil, or_false] at hk
  rcases hk with rfl | rfl <;>
    exact ⟨arrives_other _ _ _ _ _ (by decide +kernel), rfl, rfl, other_peers (by decide +kernel), rfl⟩

/-- RESUME of station 13 at station 12: the completing one, with the station's stop setpoint and with another, SYNC_DEVIATION at level 7 not
pending and pending, and at level 6; one in STOPPED, and one elsewhere. -/
theorem witness_ResumeMarksAndMoves :
    let w := receiving (markedBut 2 (fun p => { p with resume := true }) (stoppedAt 0 .resumeWait)) 0
    (∀ c ∈ [(7, false), (7, true), (6, false), (6, true)],
      let s := formed { w with har := { w.har with causes := w.har.causes.set Cause.syncDeviation.number ⟨c.1, c.2⟩ } }
      (∀ sp ∈ [505428, 505429], Arrives s (head 13 95412783) (.resume 40 sp) 2 false (clockAt 0))
        ∧ LevelsLegal s ∧ PairAnnounced s ∧ s.ixs.state = .resumeWait ∧ (40#16) = s.ixs.index ∧ s.pgn.stopSetpoint = some 505428
        ∧ s.pgn.stopPosition = some 129389600 ∧ s.har.level .syncDeviation = c.1 ∧ s.har.isPending .syncDeviation = c.2
        ∧ s.har.announcedLevel = (if c.2 then c.1 else 0)
        ∧ (∀ (j : Nat) (p : Peer), s.peers[j]? = some p → j ≠ 2 → p.resume = true))
      ∧ (let t := receiving (stoppedAt 0 .stopped) 0
        Arrives t (head 13 95412783) (.resume 40 505428) 2 false (clockAt 0) ∧ t.ixs.state = .stopped)
      ∧ (let t := receiving (station 12 .working) 0
        Arrives t (head 13 95412783) (.resume 40 505428) 2 false (clockAt 0) ∧ t.ixs.state = .working) := by
  intro w
  refine ⟨?_, ⟨arrives_other _ _ _ _ _ (by decide +kernel), rfl⟩, ⟨arrives_other _ _ _ _ _ (by decide +kernel), rfl⟩⟩
  intro c hc s
  refine ⟨fun sp hsp => arrives_other _ _ _ _ _ ?_, ⟨?_, fun d => ?_⟩, ?_, ?_, ?_, ?_, ?_, ?_, ?_, ?_, other_peers ?_⟩
  · revert sp c; decide +kernel
  · revert c; decide +kernel
  · cases d <;> (revert c; decide +kernel)
  · unfold PairAnnounced; revert c; decide +kernel
  all_goals revert c; decide +kernel

/-- With a record, with the empty marker and without a HANDOVER, by LOWERED and by a forming JOIN. -/
theorem witness_SeatingDecision :
    ∀ c ∈ [some (some pallet302), some none, none],
      let u := receiving (waiting 13 (c.getD none)) 0
      let s := if c = none then { u with rst := { u.rst with incoming := none } } else u
      s.ixs.state = .seating ∧ s.ixs.step = .upstream ∧ 1 + 1 = s.ownIdx ∧ LevelsLegal s
        ∧ (s.rst.incoming.map fun y => (y.index == s.indexMade, y.content)) = c.map (fun x => (true, x))
        ∧ Arrives s (head 12 0) (.lowered s.indexMade) 1 false (clockAt 0)
        ∧ Arrives s (head 12 0) (.join { joinFields with forming := true }) 1 false (clockAt 0) := by
  intro c hc
  simp only [List.mem_cons, List.not_mem_nil, or_false] at hc
  rcases hc with rfl | rfl | rfl <;>
    exact ⟨by decide +kernel, by decide +kernel, by decide +kernel, levels_of_reset rfl, by decide +kernel,
      arrives_other _ _ _ _ _ (by decide +kernel), arrives_other _ _ _ _ _ (by decide +kernel)⟩

/-- STOP(40) of station 12 in each state of the rule, and of another index; in MOVING with a ramp start within the profile (period
704 of 1,905) and with one past its end. -/
theorem witness_StopByState :
    (∀ st ∈ [SeqState.working, .releasing, .liftWait, .stopped, .resumeWait], ∀ n ∈ [39, 40],
      Arrives (receiving (station 13 st) 0) (head 12 0) (.stop (BitVec.ofNat 16 n) 13 6) 1 false (clockAt 0)
        ∧ (station 13 st).ixs.index = 40 ∧ (station 13 st).ssv.liftState = .down)
    ∧ (let s := station 13 .releasing
      let t := receiving { s with ssv := { s.ssv with liftState := .up } } 0
      Arrives t (head 12 0) (.stop 40 13 6) 1 false (clockAt 0) ∧ t.ssv.liftState ≠ .down)
    ∧ (let s := running (station 13 .moving) 700 204600 108438000
      let t := receiving { s with ixs := { s.ixs with origin := some 81241000 } } 0
      Arrives t (head 12 81941350) (.stop 40 13 6) 1 false (clockAt 0) ∧ t.ixs.state = .moving
        ∧ rampStart 81241000 81941350 = 704 ∧ 704 ≤ t.pgn.periods ∧ t.pgn.phase ≠ .ramping ∧ t.pgn.kind.common = true
        ∧ Arrives t (head 12 83143001) (.stop 40 13 6) 1 false (clockAt 0)
        ∧ rampStart 81241000 83143001 = 1906 ∧ t.pgn.periods = 1905) := by
  refine ⟨?_, ⟨arrives_other _ _ _ _ _ (by decide +kernel), by decide +kernel⟩,
    arrives_other _ _ _ _ _ (by decide +kernel), rfl, by decide +kernel, by decide +kernel, by decide +kernel,
    by decide +kernel, arrives_other _ _ _ _ _ (by decide +kernel), by decide +kernel, by decide +kernel⟩
  intro st hst n hn
  refine ⟨arrives_other _ _ _ _ _ ?_, ?_⟩ <;> revert st n <;> decide +kernel

/-- HOLD at the levels 3 and 4, LOWERED, and the station's own HOLD. -/
theorem witness_HoldAndLoweredWriteColumns :
    let s := receiving (station 12 .working) 0
    (∀ lv ∈ [3, 4], Arrives s (head 13 0) (.hold lv 20) 2 false (clockAt 0))
      ∧ Arrives (sending (station 12 .working) (.hold 4 3) 0) (head 12 0) (.hold 4 3) 1 true (clockAt 0)
      ∧ Arrives s (head 13 0) (.lowered 39) 2 false (clockAt 0)
      ∧ ¬((39#16) = s.indexMade ∧ s.ixs.state = .seating ∧ s.ixs.step = .upstream ∧ 2 + 1 = s.ownIdx) := by
  intro s
  refine ⟨fun lv hlv => arrives_other _ _ _ _ _ ?_, arrives_own _ _ _ _ _ ⟨7, .hold 4 3⟩ (by decide +kernel),
    arrives_other _ _ _ _ _ (by decide +kernel), by decide +kernel⟩
  revert lv; decide +kernel

/-- 5.9.1: p = 696 against the last q that is allowed on either side and the first that is not. -/
theorem witness_PositionTested :
    let s := running (station 13 .stopping) 718 0 0
    let at' (q : Nat) : State := receiving { s with ssv := { s.ssv with frameCopy := some ⟨q, .ramping, .forward, false⟩ } } 0
    (∀ q ∈ [693, 694, 705, 706],
      Arrives (at' q) (head 12 0) (.position { positionFields with period := 696 }) 1 false (clockAt 0)
        ∧ LevelsLegal (at' q) ∧ (at' q).ssv.frameCopy = some ⟨q, .ramping, .forward, false⟩)
    ∧ (∀ q ∈ [693, 706],
      Deviates (at' 0) { positionFields with period := 696 } ⟨q, .ramping, .forward, false⟩)
    ∧ ∀ q ∈ [694, 705], ¬Deviates (at' 0) { positionFields with period := 696 } ⟨q, .ramping, .forward, false⟩ := by
  refine ⟨fun q hq => ⟨arrives_other _ _ _ _ _ ?_, levels_of_reset rfl, rfl⟩, ?_, ?_⟩
  · revert q; decide +kernel
  · unfold Deviates; decide +kernel
  · unfold Deviates; decide +kernel

/-- HANDOVER of the upstream member in MOVING for index 40 and for another, and the station's own. -/
theorem witness_HandoverObserved :
    let s := receiving (station 13 .moving) 0
    (s.isLoad = false ∧ 1 + 1 = s.ownIdx ∧ s.ixs.state = .moving ∧ s.ixs.index = 40)
      ∧ Arrives s (head 12 0) (.handover 40 (some pallet302)) 1 false (clockAt 0)
      ∧ Arrives s (head 12 0) (.handover 39 (some pallet302)) 1 false (clockAt 0)
      ∧ (let t := sending (station 13 .moving) (.handover 40 none) 0
        let u := { t with rst := { t.rst with outgoing := some ⟨40, none, .queued⟩ } }
        Arrives u (head 13 0) (.handover 40 none) 2 true (clockAt 0) ∧ u.rst.outgoing = some ⟨40, none, .queued⟩
          ∧ ¬(u.ixs.state = .lowering ∧ u.ixs.step = .handover)) := by
  intro s
  exact ⟨by decide +kernel, arrives_other _ _ _ _ _ (by decide +kernel), arrives_other _ _ _ _ _ (by decide +kernel),
    arrives_own _ _ _ _ _ ⟨7, .handover 40 none⟩ (by decide +kernel), rfl, by decide +kernel⟩

/-- The station `n`, index number 41, LOWERING with its HANDOVER(40) on the link. -/
def handingOver (n : Nat) : State :=
  let s := sending (station n .lowering) (.handover 40 none) 0
  { s with ixs := { s.ixs with index := 41, step := .handover, sinceCompletion := 1999999 }
           ssv := { s.ssv with shuttle := .atEnd }
           rst := { s.rst with outgoing := some ⟨40, none, .queued⟩ } }

/-- At the load station; at station 13 whose upstream member has lowered, and whose has not, one microsecond before LOWER_TIMEOUT and at
it; with the lift not yet DOWN, and with an outgoing record of another index. -/
theorem witness_OwnHandoverEndsLowering :
    (∀ n ∈ [11, 13], (handingOver n).ixs.state = .lowering ∧ (handingOver n).ixs.step = .handover
      ∧ (handingOver n).ssv.liftState = .down ∧ (handingOver n).rst.outgoing = some ⟨40, none, .queued⟩ ∧ LevelsLegal (handingOver n))
    ∧ (Arrives (handingOver 11) (head 11 0) (.handover 40 none) 0 true (clockAt 0) ∧ (handingOver 11).isLoad = true)
    ∧ Arrives (handingOver 13) (head 13 0) (.handover 40 none) 2 true (clockAt 0) ∧ (handingOver 13).isLoad = false
    ∧ Arrives (let s := sending (handingOver 13) (.handover 39 none) 0; s) (head 13 0) (.handover 39 none) 2 true (clockAt 0)
    ∧ ¬UpstreamLowered (handingOver 13)
    ∧ UpstreamLowered { handingOver 13 with peers := (handingOver 13).peers.map fun p => { p with lastLowered := some 40 } }
    ∧ (handingOver 13).ixs.sinceCompletion + 1 = ((handingOver 13).items.lowerTimeout + 9) / 10 * 10000
    ∧ ({ (handingOver 13).ssv with liftState := .falling } : Ssv).liftState ≠ .down := by
  refine ⟨fun n hn => ?_, ⟨arrives_own _ _ _ _ _ ⟨7, .handover 40 none⟩ (by decide +kernel), by decide +kernel⟩,
    arrives_own _ _ _ _ _ ⟨7, .handover 40 none⟩ (by decide +kernel), by decide +kernel,
    arrives_own _ _ _ _ _ ⟨7, .handover 39 none⟩ (by decide +kernel), ?_, ?_, by decide +kernel, by decide +kernel⟩
  · exact ⟨rfl, rfl, rfl, rfl, levels_of_reset rfl⟩
  · rintro ⟨p, h, k⟩
    have e : (handingOver 13).peers[(handingOver 13).ownIdx - 1]? = some { Peer.initial with matched := .yes } := by decide +kernel
    rw [e] at h
    exact absurd (Option.some.inj h ▸ k) (by decide +kernel)
  · exact ⟨{ Peer.initial with matched := .yes, lastLowered := some 40 }, by decide +kernel, by decide +kernel⟩

/-- A station with one sample in its list. -/
def sampled (st : SeqState) (step : StepState) (x : Int) : State :=
  let s := station 12 st
  { s with ltu := { s.ltu with samples := [⟨2, x⟩], step := step } }

/-- Corrections of 25, 26, -25 and -26 µs, clamped by the step state or by the sequencer state, and not clamped. -/
theorem witness_CorrectionClamped :
    (∀ x ∈ [50, 52, -50, -52], (sampled .working .fine x).ltu.nextBeat = some 50000)
      ∧ Correction (sampled .working .fine 50).ltu.samples = 25 ∧ Correction (sampled .working .fine 52).ltu.samples = 26
      ∧ Correction (sampled .working .fine (-50)).ltu.samples = -25 ∧ Correction (sampled .working .fine (-52)).ltu.samples = -26
      ∧ Clamps (sampled .working .coarse 52) ∧ Clamps (sampled .moving .none 52) ∧ ¬Clamps (sampled .working .none 52) := by
  unfold Correction Clamps; decide +kernel

/-- Samples at both bounds of both windows and one outside each. -/
theorem witness_RunsUpdated :
    (∀ x ∈ [25, -25, 26, -26, 250, -250, 251, -251], (sampled .working .fine x).ltu.nextBeat = some 50000
        ∧ (sampled .working .fine x).ltu.samples = [⟨2, x⟩])
      ∧ (station 12 .working).ltu.samples = [] ∧ (station 12 .working).ltu.nextBeat = some 50000 := by decide +kernel

/-- The step state falls to NONE in MOVING, and stays FINE in WORKING; a backward step that would make the boundary just reached the
next one. -/
theorem witness_BeatInstantTaken :
    (∀ s ∈ [sampled .moving .fine 251, sampled .working .fine 25], s.ltu.nextBeat = some 50000 ∧ LevelsLegal s
      ∧ s.ltu.step ≠ .none)
    ∧ (let s := sampled .working .fine (-50)
      let t := { s with ltu := { s.ltu with lineTime := 50000 } }
      t.ltu.nextBeat = some 50000 ∧ FirstLater (t.ltu.lineTime - 25) = 50000) := by
  refine ⟨fun s hs => ?_, rfl, by unfold FirstLater; decide +kernel⟩
  simp only [List.mem_cons, List.not_mem_nil, or_false] at hs
  rcases hs with rfl | rfl <;> exact ⟨rfl, levels_of_reset rfl, by decide +kernel⟩

/-- Every timer of the rules at its expiry, in a state in which it runs. -/
theorem witness_ExpiriesRaiseCauses :
    (∀ st ∈ [SeqState.releasing, .liftWait], ∀ step ∈ [IndexStep.abandonLift, .inPosition, .liftDown, .upstream],
      ∀ fx ∈ [FixtureState.opening, .locating, .clamping],
      let s := station 13 st
      let t := { s with
        ixs := { s.ixs with step := step, liftBarrierTimer := some 0, loweringTimer := some 0, upstreamTimer := some 0 }
        ssv := { s.ssv with homeCheckTimer := some 0 }
        fxs := { s.fxs with state := fx, stepTimer := some 0, clampTimer := some 0 } }
      t.ixs.state ≠ .offline ∧ t.har.causes = Har.reset.causes ∧ t.ixs.liftBarrierTimer ≠ none ∧ t.ixs.loweringTimer ≠ none
        ∧ t.ixs.upstreamTimer ≠ none ∧ t.ssv.homeCheckTimer ≠ none ∧ t.fxs.stepTimer ≠ none ∧ t.fxs.clampTimer ≠ none)
    ∧ LevelsLegal (station 13 .releasing)
    ∧ (∀ i ∈ [0, 3], (station 13 .working).peers[i]? = some { Peer.initial with matched := .yes }
        ∧ Peer.initial.silence = some 0) :=
  ⟨by decide +kernel, levels_of_reset rfl, by decide +kernel⟩

/-- The JOIN repetition in FORMING; formation that may end, with a JOIN in the transmit buffer, and that may not. -/
theorem witness_FormationEvents :
    let s := sending (station 13 .forming) (.join joinFields) 0
    let t := { s with ixs := { s.ixs with joinTimer := some 0 } }
    (t.ixs.state = .forming ∧ t.ixs.joinTimer ≠ none ∧ FormingEnds t ∧ t.lpt.buffer = some ⟨7, .join joinFields⟩)
      ∧ CausesSettled t ∧ ¬FormingEnds { t with ltu := { t.ltu with step := .coarse } } := by
  unfold CausesSettled FormingEnds; decide +kernel

/-- READY of an empty fixture and of a full one; at the unload station an exit queue of 3 and of 4 records. -/
theorem witness_ReadyOffered :
    let e := station 12 .working
    let s := holding (station 14 .working)
    let t (q : List PalletRecord) : State :=
      { s with ixs := { s.ixs with pendingResult := some .suspect }, rst := { s.rst with exitQueue := q } }
    (∀ u ∈ [e, t (List.replicate 3 pallet302)], ReadyGoes u ∧ (u.rst.status ≠ .held → u.rst.record = none))
      ∧ e.rst.status = .empty ∧ (t []).rst.status = .held ∧ (t []).rst.record = some pallet302
      ∧ (t []).ixs.pendingResult = some .suspect ∧ (t []).isUnload = true
      ∧ (∀ u ∈ [t (List.replicate 4 pallet302), unsure e, holding e], ¬ReadyGoes u
        ∧ (u.rst.status ≠ .held → u.rst.record = none)) := by unfold ReadyGoes; decide +kernel

/-- Homing that starts with the home sensor off and on; its timer at its expiry in each stage, RETURN_FAULT below level 7. -/
theorem witness_HomingStartsAndExpires :
    (∀ home ∈ [false, true], HomingStarts (unhomed home) ∧ (unhomed home).inputs.home = home)
    ∧ ¬HomingStarts (station 13 .forming)
    ∧ (∀ g ∈ [HomingStage.creep, .edgeRamp, .offCam, .toZero, .check],
      let s := unhomed false
      let t := { s with ssv := { s.ssv with shuttle := .homing, homingStage := g, homingTimer := some 0 } }
      t.ssv.homingTimer ≠ none ∧ t.ixs.state ≠ .offline ∧ t.ssv.shuttle = .homing ∧ t.ssv.homingStage = g
        ∧ t.har.level .returnFault ≠ 7)
    ∧ LevelsLegal (unhomed false) ∧ CausesSettled (unhomed false) :=
  ⟨by unfold HomingStarts; decide +kernel, by unfold HomingStarts; decide +kernel, by decide +kernel, levels_of_reset rfl,
    by unfold CausesSettled; decide +kernel⟩

/-- Mark 5 secures and mark 4 does not, mark 7 is the last; a station that waits and one that does not. -/
theorem witness_SettleMarkSet :
    (∀ k ∈ [0, 3, 4, 6], (clamping k).fxs.state = .clamping ∧ (clamping k).inputs.pressure = true ∧ (clamping k).fxs.marks < 7)
      ∧ (clamping 3).fxs.marks + 1 < (clamping 3).items.settleStage
      ∧ (clamping 4).items.settleStage ≤ (clamping 4).fxs.marks + 1
      ∧ ((clamping 4).rst.status ≠ .empty ∧ (clamping 4).ixs.state = .seating ∧ (clamping 4).ixs.step = .seat)
      ∧ ¬(clamping 7).fxs.marks < 7 ∧ ({ (clamping 4).ixs with state := .working } : Ixs).state = .working := by
  decide +kernel

/-- The sensors of a SECURED, a CLAMPING, an OPENING, an OPEN and a LOCATING fixture; one locator lost, both, and one lost while the other
stays, also in opening step 2. -/
theorem witness_FixtureSensors :
    LevelsLegal (holding (station 13 .working))
      ∧ (∀ st ∈ [SeqState.working, .offline, .releasing], ∀ fx ∈ [FixtureState.open, .opening, .locating, .clamping, .secured],
        let s := holding (station 13 st)
        let t := { s with fxs := { s.fxs with state := fx, openingStep := .one } }
        t.inputs.pressure = true ∧ t.inputs.locator1 = true ∧ t.inputs.locator2 = true ∧ t.fxs.openingStep = .one
          ∧ ∀ x ∈ [(true, false), (false, true), (false, false)],
            (t.inputs.locator1 = true ∧ x.1 = false) ∨ (t.inputs.locator2 = true ∧ x.2 = false))
      ∧ ({ Fxs.reset with state := .opening, openingStep := .two } : Fxs).openingStep = .two :=
  ⟨levels_of_reset rfl, by decide +kernel, rfl⟩

/-- The last locator withdrawn, and the pressure off with both withdrawn already: in RELEASING with the lift in each state, and in the other
states in which a fixture opens, waiting for an EMPTY fixture or not. -/
theorem witness_WithdrawnFixtureRaisesLift :
    ∀ x ∈ [(SeqState.releasing, IndexStep.none), (.forming, .none), (.working, .none), (.seating, .seat), (.abandoning, .abandonSeat)],
      ∀ l ∈ [LiftState.down, .falling, .rising, .up],
      let s := station 13 x.1
      let t (k : OpeningStep) (on : Bool) : State :=
        { s with fxs := { s.fxs with state := .opening, openingStep := k }, ixs := { s.ixs with step := x.2 }
                 inputs := { s.inputs with pressure := !on, locator2 := on }, ssv := { s.ssv with liftState := l } }
      ((t .two true).fxs.state = .opening ∧ (t .two true).fxs.openingStep = .two ∧ (t .two true).inputs.locator2 = true)
        ∧ ((t .one false).fxs.state = .opening ∧ (t .one false).fxs.openingStep = .one ∧ (t .one false).inputs.pressure = true
          ∧ (t .one false).inputs.locator1 = false ∧ (t .one false).inputs.locator2 = false)
        ∧ s.rst.status = .empty ∧ (unsure s).rst.status ≠ .empty := by decide +kernel

/-- The origin of a forward profile with a record and without one, at an unload station and at another, and of a resume profile, also of
one over no distance; of both where a stop ramp from period 1 has replaced them; a cause of level 7 pending and none. -/
theorem witness_OriginMovesRecord :
    (∀ n ∈ [13, 14],
      let s := holding (station n .moving)
      let t := { s with ixs := { s.ixs with pendingResult := some .ok }, fxs := (station n .moving).fxs
                        pgn := s.pgn.prepareForward 1250000 204800 600 81241000 }
      t.pgn.phase = .waiting ∧ t.pgn.begun = false ∧ 1 ≤ t.pgn.periods ∧ t.fxs.state = .open ∧ t.pgn.kind = .forward
        ∧ ((t.pgn.ramp 1).phase = .ramping ∧ (t.pgn.ramp 1).begun = false ∧ (t.pgn.ramp 1).kind = .forward)
        ∧ t.rst.status = .held ∧ t.rst.record = some pallet302 ∧ t.ixs.pendingResult = some .ok
        ∧ t.ixs.state ∉ [.releasing, .seating, .abandoning] ∧ (station n .moving).rst.status = .empty)
    ∧ (let s := stoppedAt 0 .moving
      let g := s.pgn.prepareResume 1250000 204800 600 95417000
      let z := { s.pgn with stopPosition := some 320000000 }.prepareResume 1250000 204800 600 95417000
      g.phase = .waiting ∧ g.begun = false ∧ 1 ≤ g.periods ∧ s.fxs.state = .open ∧ g.kind = .resume
        ∧ ((g.ramp 1).phase = .ramping ∧ (g.ramp 1).begun = false ∧ (g.ramp 1).kind = .resume)
        ∧ (z.phase = .waiting ∧ z.begun = false ∧ z.periods = 0 ∧ z.kind = .resume ∧ s.ixs.state = .moving
          ∧ s.ssv.shuttle ≠ .halted ∧ s.har.anyPendingAt 7 = false ∧ (s.har.setPending .emergency true).anyPendingAt 7 = true))
    ∧ CausesSettled (station 13 .moving) := by unfold CausesSettled; decide +kernel

/-- A return and a homing run that wait, a return and a reposition over no distance, and a common profile. -/
theorem witness_LocalProfileStarts :
    let g := Pgn.reset.prepareMove .ret 1250000 0 204800 600 0
    let z := Pgn.reset.prepareMove .ret 0 0 204800 600 0
    let w := Pgn.reset.prepareMove .reposition 0 0 5120 600 0
    let h := Pgn.reset.prepareHoming 0 5120 600 0
    (g.kind = .ret ∧ g.phase = .waiting ∧ 1 ≤ g.periods) ∧ (z.kind = .ret ∧ z.phase = .waiting ∧ z.periods = 0)
      ∧ (h.kind = .homing ∧ h.phase = .waiting) ∧ (w.kind = .reposition ∧ w.phase = .waiting ∧ w.periods = 0)
      ∧ (∀ use ∈ [RepositionUse.toPitch, .toStop, .toHome, .offCam],
        let s := station 13 .working
        let t := { s with pgn := w, ssv := { s.ssv with repositionUse := some use }, inputs := { s.inputs with home := false } }
        t.ssv.repositionUse = some use ∧ t.ssv.shuttle ≠ .halted ∧ ¬StillOnCam t)
      ∧ CausesSettled (station 13 .working) ∧ (Pgn.reset.prepareForward 1250000 204800 600 0).kind = .forward := by
  unfold StillOnCam CausesSettled; decide +kernel

/-- Distances of 0, one below ACCEL, ACCEL itself, and the index of 4.5.1; the acceleration at its least and at the limit. -/
theorem witness_ProfileProcedure :
    (1 ≤ 600 ∧ 600 ≤ 204800) ∧ (1 ≤ 1 ∧ 1 ≤ 1) ∧ (0 < 599 ∧ 599 < 600) ∧ 600 ≤ 600 ∧ 600 ≤ 320000000 := by decide

/-- A state whose next word finds FOLLOW_LIMIT exceeded, from facts that can be decided. -/
theorem exceeds_of {s : State} {g : Pgn} (h : s.har.causes = Har.reset.causes)
    (d : 40 ≤ s.ssv.wordAge ∧ ¬Follows97 s g.setpoint ∧ s.ixs.state ≠ .offline ∧ s.har.isPending .followingError = false
      ∧ s.ssv.shuttle ≠ .halted) : Exceeds s g :=
  ⟨d.1, d.2.1, levels_of_reset h, d.2.2⟩

/-- No ramp start period, for what `Ramps` asks. -/
theorem not_ramps {p : Pgn} (h : ∀ j ∈ p.rampFrom, p.counter + 1 < j) : ¬Ramps p :=
  fun ⟨j, e, l⟩ => absurd (h j e) (by omega)

/-- The second last period of the profile of 4.5.1, at a count that is a multiple of 8, while a word is being sent and at its end, within
FOLLOW_LIMIT and beyond it; period N in RAMPING before the ramp, and the period before it; a period of a homing run. -/
theorem witness_PeriodEnds :
    let s (c age e : Nat) : State :=
      let s := running (station 13 .moving) c 2400 319997000
      { s with ssv := { s.ssv with encoder := BitVec.ofNat 32 e, wordAge := age } }
    let r (c : Nat) : State := { s c 40 1249997 with pgn := { (s c 40 0).pgn with phase := .ramping, rampFrom := some (c + 2) } }
    let x := SetpointOf (s 1903 40 0).pgn ((s 1903 40 0).pgn.acc + planVelocity (s 1903 40 0).pgn.distance (s 1903 40 0).pgn.accel
      (s 1903 40 0).pgn.plan 1904)
    let h := unhomed false
    let u := { h with ssv := { h.ssv with wordAge := 40 }
                      pgn := { h.pgn.prepareHoming 0 5120 600 0 with phase := .running, begun := true, counter := 7 } }
    (∀ age ∈ [39, 40], ∀ e ∈ [1249997, 90000], PeriodRuns (s 1903 age e) ∧ (s 1903 age e).pgn.kind ≠ .none
        ∧ (s 1903 age e).pgn.counter + 1 < (s 1903 age e).pgn.periods ∧ ¬Ramps (s 1903 age e).pgn)
      ∧ (Follows97 (s 1903 40 1249997) x ∧ NothingWaits (s 1903 40 1249997) ∧ CausesSettled (s 1903 40 1249997) ∧ 1904 % 8 = 0)
      ∧ Exceeds (s 1903 40 90000) { (s 1903 40 0).pgn with setpoint := x }
      ∧ (∀ c ∈ [1903, 1904], PeriodRuns (r c) ∧ (r c).pgn.phase = .ramping ∧ ¬Ramps (r c).pgn)
      ∧ (PeriodRuns u ∧ u.pgn.rampFrom = none ∧ u.pgn.kind = .homing ∧ 40 ≤ u.ssv.wordAge ∧ u.ssv.drive = false
        ∧ NothingWaits u) := by
  intro s r x h u
  refine ⟨fun age _ e _ => ⟨.inl rfl, ?_, ?_, not_ramps ?_⟩, ?_, exceeds_of rfl ?_,
    fun c _ => ⟨.inr ⟨rfl, rfl⟩, rfl, not_ramps ?_⟩, ?_⟩
  · show PgnKind.forward ≠ .none; decide
  · show 1904 < (s 1903 40 0).pgn.periods; decide +kernel
  · intro j hj; exact absurd hj (by show j ∉ (none : Option Nat); simp)
  · unfold Follows97 NothingWaits CausesSettled; decide +kernel
  · unfold Follows97; decide +kernel
  · intro j hj
    have : c + 2 = j := Option.some.inj hj
    show c + 1 < j
    omega
  · unfold PeriodRuns NothingWaits; decide +kernel

/-- The last period of a return over 2 µm and of a reposition over 2 µm for each use, off the cam and still on it; a ramp period of a homing
run with velocity left, and the one that ends it, at a home edge and failed; in position and beyond FOLLOW_LIMIT. -/
theorem witness_PeriodEnds_outcomes :
    let last (kind : PgnKind) (use : RepositionUse) (e : Nat) : State :=
      let s := station 13 .working
      { s with pgn := { s.pgn.prepareMove kind 2 0 5120 600 0 with phase := .running, begun := true }
               ssv := { s.ssv with repositionUse := some use, encoder := BitVec.ofNat 32 e } }
    let ramp (g : HomingStage) (v e : Nat) : State :=
      let s := station 13 .forming
      { s with ssv := { s.ssv with shuttle := .homing, homingStage := g, encoder := BitVec.ofNat 32 e }
               pgn := { s.pgn.prepareHoming 500 5120 600 0 with
                        phase := .running, begun := true, counter := 31, velocity := v, acc := 117760, rampFrom := some 32 } }
    (∀ k ∈ [PgnKind.ret, .reposition], ∀ use ∈ [RepositionUse.toPitch, .toStop, .toHome, .offCam],
        let s := last k use 0
        PeriodRuns s ∧ s.pgn.phase = .running ∧ s.pgn.kind = k ∧ s.pgn.rampFrom = none ∧ s.pgn.counter + 1 = s.pgn.periods
          ∧ 40 ≤ s.ssv.wordAge ∧ Follows97 s 0 ∧ s.ssv.drive = true ∧ s.ssv.shuttle ≠ .halted
          ∧ s.ssv.repositionUse ≠ none ∧ (use ≠ .offCam → ¬StillOnCam s)
          ∧ ¬StillOnCam { s with inputs := { s.inputs with home := false } })
      ∧ (StillOnCam (last .reposition .offCam 0) ∧ NothingWaits (last .reposition .offCam 0)
        ∧ LevelsLegal (last .reposition .offCam 0))
      ∧ Exceeds (last .ret .toHome 90000) { (last .ret .toHome 0).pgn with setpoint := 0 }
      ∧ (∀ g ∈ [HomingStage.edgeRamp, .rampFailed], ∀ v ∈ [600, 1025],
        let s := ramp g v 40
        PeriodRuns s ∧ s.pgn.kind = .homing ∧ s.pgn.rampFrom = some (s.pgn.counter + 1)
          ∧ (v = 600 → s.pgn.velocity ≤ s.items.stopDecel) ∧ (v = 1025 → s.items.stopDecel < s.pgn.velocity)
          ∧ SetpointOf s.pgn s.pgn.acc = 40 ∧ Follows97 s 40 ∧ s.ssv.drive = true ∧ s.ssv.shuttle ≠ .halted
          ∧ s.ssv.homingStage = g)
      ∧ Exceeds (ramp .edgeRamp 600 90000) { (ramp .edgeRamp 600 0).pgn with setpoint := 40 } := by
  intro last ramp
  refine ⟨?_, ⟨?_, ?_, levels_of_reset rfl⟩, exceeds_of rfl ?_, ?_, exceeds_of rfl ?_⟩
  · unfold PeriodRuns Follows97 StillOnCam; decide +kernel
  · unfold StillOnCam; decide +kernel
  · unfold NothingWaits; decide +kernel
  · unfold Follows97; decide +kernel
  · unfold PeriodRuns Follows97; decide +kernel
  · unfold Follows97; decide +kernel

/-- Period 1,905 of 4.5.1: while a word is being sent and at its end, in position, at INPOS_WINDOW and one beyond it, and beyond
FOLLOW_LIMIT; with the shuttle HALTED, a cause of level 7 pending and none. -/
theorem witness_IndexCompletes :
    let s (age e : Nat) : State :=
      let s := running (station 13 .moving) 1904 1200 319999400
      { s with ssv := { s.ssv with encoder := BitVec.ofNat 32 e, wordAge := age } }
    let v := planVelocity (s 40 0).pgn.distance (s 40 0).pgn.accel (s 40 0).pgn.plan 1905
    (∀ age ∈ [39, 40], ∀ e ∈ [1250000, 1250200, 1250201, 1253000, 1253001],
        (s age e).ixs.state = .moving ∧ (s age e).pgn.kind = .forward ∧ (s age e).pgn.phase = .running
          ∧ (s age e).pgn.rampFrom = none ∧ (s age e).pgn.counter + 1 = (s age e).pgn.periods ∧ (s age e).ssv.liftState = .up
          ∧ (s age e).ssv.shuttle ≠ .halted ∧ (s age e).sim.slots ≠ [])
      ∧ (s 40 0).pgn.base + (s 40 0).pgn.acc + v = (s 40 0).pitch * 256
      ∧ (Follows97 (s 40 1253000) 1250000 ∧ ¬Follows97 (s 40 1253001) 1250000
        ∧ Exceeds (s 40 1253001) { (s 40 0).pgn with setpoint := 1250000 })
      ∧ (s 40 0).ssv.drive = true ∧ (s 40 0).items.inposWindow = 200 ∧ CausesSettled (s 40 1250000)
      ∧ (∀ on ∈ [true, false], ∀ age ∈ [39, 40],
        let u := s age 1250000
        let t := { u with har := u.har.setPending .emergency on, ssv := { u.ssv with shuttle := .halted, haltedFrom := some .forward } }
        t.ixs.state = .moving ∧ t.pgn.kind = .forward ∧ t.pgn.phase = .running ∧ t.pgn.rampFrom = none
          ∧ t.pgn.counter + 1 = t.pgn.periods ∧ t.ssv.liftState = .up ∧ t.ssv.shuttle = .halted ∧ t.ssv.homeCheck = false
          ∧ t.har.anyPendingAt 7 = on ∧ Follows97 t 1250000 ∧ CausesSettled t) := by
  intro s v
  refine ⟨by decide +kernel, by decide +kernel, ⟨?_, ?_, exceeds_of rfl ?_⟩, rfl, rfl, ?_, ?_⟩
  · unfold Follows97; decide +kernel
  · unfold Follows97; decide +kernel
  · unfold Follows97; decide +kernel
  · unfold CausesSettled; decide +kernel
  · unfold Follows97 CausesSettled; decide +kernel

/-- Table 4-7, the first period of the ramp (704), with velocity left, and its last (903), also from the beginning of the profile; while a
word is being sent, at its end, and beyond FOLLOW_LIMIT. -/
theorem witness_StopRampPeriod :
    let r (c v acc e age : Nat) : State :=
      let s := running (station 13 .stopping) c v acc
      { s with pgn := { s.pgn with phase := .ramping, rampFrom := some (if c = 0 then 1 else 704) }
               ssv := { s.ssv with encoder := BitVec.ofNat 32 e, wordAge := age } }
    let next (s : State) : Int :=
      ((min (s.pgn.base + s.pgn.acc + (s.pgn.velocity - s.items.stopDecel)) (s.pitch * 256) / 256 : Nat) : Int)
    (∀ age ∈ [39, 40], ∀ s ∈ [r 703 204600 109051800 426778 age, r 902 824 129389600 505428 age, r 0 0 0 0 age],
      PeriodRuns s ∧ s.pgn.kind = .forward ∧ (∀ j ∈ s.pgn.rampFrom, j ≤ s.pgn.counter + 1) ∧ s.pgn.rampFrom ≠ none
        ∧ CausesSettled s ∧ s.ssv.wordAge = age ∧ NothingWaits s ∧ Follows97 s (next s))
    ∧ (0 < (r 703 204600 109051800 0 40).pgn.velocity - (r 703 204600 109051800 0 40).items.stopDecel
      ∧ (r 902 824 129389600 0 40).pgn.velocity - (r 902 824 129389600 0 40).items.stopDecel = 0)
    ∧ Exceeds (r 703 204600 109051800 0 40) { (r 703 204600 109051800 0 40).pgn with setpoint := 426778 }
    ∧ Exceeds (r 902 824 129389600 0 40) { (r 902 824 129389600 0 40).pgn with setpoint := 505428 } := by
  intro r next
  refine ⟨?_, by decide +kernel, exceeds_of rfl ?_, exceeds_of rfl ?_⟩
  · unfold PeriodRuns Follows97 NothingWaits CausesSettled; decide +kernel
  · unfold Follows97; decide +kernel
  · unfold Follows97; decide +kernel

/-- A word that starts at FOLLOW_LIMIT and one beyond it; in a home check, in LOWERING and in RESUME_WAIT, at INPOS_WINDOW. -/
theorem witness_SetpointWordStarted :
    (40 ≤ (station 13 .moving).ssv.wordAge ∧ ({ Ssv.reset with wordWaiting := true } : Ssv).wordWaiting = true)
    ∧ (let e (x : Nat) (st : SeqState) : State := let s := station 13 st; { s with ssv := { s.ssv with encoder := BitVec.ofNat 32 x } }
      (Follows97 (e 3000 .moving) 0 ∧ ¬Follows97 (e 3001 .moving) 0 ∧ NothingWaits (e 3001 .moving)
        ∧ (e 3001 .moving).har.isPending .followingError = false)
      ∧ (let s := e 200 .working
        let t := { s with ssv := { s.ssv with homeCheck := true, shuttle := .returning } }
        Follows97 t 0 ∧ t.ssv.homeCheck = true ∧ t.ixs.state = .working ∧ t.ssv.shuttle ≠ .halted ∧ t.inputs.home = true
          ∧ t.ssv.drive = true ∧ (t.ssv.encoder.toInt - t.pgn.setpoint).natAbs = t.items.inposWindow)
      ∧ (let s := e 200 .lowering
        let t := { s with ixs := { s.ixs with step := .inPosition }, ssv := { s.ssv with shuttle := .atEnd, liftState := .up } }
        Follows97 t 0 ∧ t.ssv.homeCheck = false ∧ t.ixs.state = .lowering ∧ t.ixs.step = .inPosition ∧ t.ssv.shuttle = .atEnd
          ∧ t.ssv.liftState ≠ .down ∧ t.ssv.drive = true
          ∧ (t.ssv.encoder.toInt - t.pgn.setpoint).natAbs = t.items.inposWindow)
      ∧ (let s := e 200 .resumeWait
        let t := { s with ixs := { s.ixs with resumeStep := .awaitWord }, pgn := { s.pgn with stopPosition := some 0 } }
        Follows97 t 0 ∧ t.ssv.homeCheck = false ∧ t.ixs.state = .resumeWait ∧ t.ixs.resumeStep = .awaitWord
          ∧ t.pgn.stopPosition = some 0 ∧ (t.ssv.encoder.toInt - ((0 / 256 : Nat) : Int)).natAbs ≤ t.items.inposWindow))
    ∧ LevelsLegal (station 13 .moving) := by
  refine ⟨by decide +kernel, ?_, levels_of_reset rfl⟩
  unfold Follows97 NothingWaits; decide +kernel

/-- The home edge of a creep; each lift sensor on the way to it, in each state of the rules; a sensor that is on. -/
theorem witness_MotionSensors :
    (let s := unhomed false
      let t := { s with ssv := { s.ssv with shuttle := .homing, homingStage := .creep, encoder := 120, homeCapture := some 180 } }
      t.inputs.home = false ∧ t.ssv.homingStage = .creep ∧ t.ssv.homeCapture = some 180)
    ∧ (∀ st ∈ [SeqState.releasing, .working], (station 12 st).inputs.liftUp = false)
    ∧ (∀ n ∈ [13, 14], ∀ x ∈ [(SeqState.lowering, IndexStep.liftDown), (.lowering, .handover), (.lowering, .inPosition),
          (.abandoning, .abandonLift), (.abandoning, .abandonSeat), (.working, .none)],
      let s := station n x.1
      let t := { s with ixs := { s.ixs with step := x.2 }, ssv := { s.ssv with liftState := .falling }
                        inputs := { s.inputs with liftDown := false } }
      t.inputs.liftDown = false ∧ t.ssv.liftState = .falling ∧ t.ixs.state = x.1 ∧ t.ixs.step = x.2
        ∧ t.isUnload = (n == 14) ∧ t.isLoad = false ∧ t.ixs.ownHandover = false ∧ t.rst.outgoing = none)
    ∧ LevelsLegal (station 14 .lowering) ∧ (station 12 .working).inputs.liftDown = true :=
  ⟨by decide +kernel, by decide +kernel, by decide +kernel, levels_of_reset rfl, by decide +kernel⟩

/-- Each input about to change, in OFFLINE, in WORKING and in MOVING. -/
theorem witness_SafetyInputs :
    LevelsLegal State.reset ∧ LevelsLegal (station 12 .moving)
      ∧ (∀ st ∈ [SeqState.offline, .forming, .working, .ready, .moving], (station 12 st).inputs.machClear = true
        ∧ (station 12 st).inputs.emergency = false ∧ (station 12 st).inputs.driveFault = false
        ∧ (station 12 st).har.isPending .emergency = false ∧ (station 12 st).har.isPending .driveFault = false
        ∧ (station 12 st).har.isPending .machIntrusion = false ∧ (station 12 st).ssv.shuttle ≠ .halted) :=
  ⟨levels_of_reset rfl, levels_of_reset rfl, by decide +kernel⟩

/-- The step of a state answers a next state. -/
def goesOn (s : State) : Bool :=
  match step s with
  | .next _ => true
  | _ => false

theorem witness_LineTimeKept :
    let s := sampled .moving .fine 251
    let t := { s with pending := [.beatInstant] }
    StepFromRuns t ∧ SamplesBounded t ∧ goesOn t = true := by
  refine ⟨?_, ?_, by decide +kernel⟩
  · unfold StepFromRuns; decide +kernel
  · intro m
    exact Nat.le_trans (List.length_filter_le _ _) (by decide +kernel)

theorem witness_RecordsImageAndFixtureKept :
    let s := holding (station 12 .working)
    let t := { s with sim := image42, pending := [.locatorOff false true] }
    RecordWithHeld t ∧ OneRecordEach t ∧ ImageDistinct t ∧ FixtureOutputs t ∧ goesOn t = true := by
  refine ⟨?_, fun _ => by decide +kernel, ?_, ?_, by decide +kernel⟩
  · unfold RecordWithHeld; decide +kernel
  · unfold ImageDistinct; decide +kernel
  · exact ⟨by decide +kernel, by decide +kernel, by decide +kernel, by decide +kernel⟩

theorem witness_QueueAndLevelsKept :
    let s := sending (station 13 .ready) (.ready ⟨40, 0, 0, .good, .empty⟩) 0
    let t := { s with lpt := { s.lpt with queue := twoFrames.queue }, pending := [.frameMarked] }
    QueueOrdered t ∧ CountBelowLimit t ∧ LevelsLegal t ∧ ReadyWithdrawn t ∧ goesOn t = true := by
  refine ⟨?_, ?_, levels_of_reset rfl, fun h => absurd h (by decide +kernel), by decide +kernel⟩
  · unfold QueueOrdered; decide +kernel
  · unfold CountBelowLimit; decide +kernel

theorem witness_DriveAndOutputsKept :
    let s := formed (identityPending (holding (station 12 .working)))
    let t := { s with pending := [.emergencyOn] }
    OfflineQuiet t ∧ DriveDropped t ∧ PairAnnounced t ∧ OutputsFollow t ∧ goesOn t = true := by
  refine ⟨fun h => absurd h (by decide +kernel), fun h => absurd h (by decide +kernel), ?_, ?_, by decide +kernel⟩
  · unfold PairAnnounced; decide +kernel
  · unfold OutputsFollow; decide +kernel

/-- A request, and a frame of the least and of the greatest sender and section. -/
theorem witness_EncodingsReadBack :
    Instr.wellFormed (.setItem (.pitch 1250000)) = true
      ∧ encodeRequest (.setItem (.pitch 1250000)) = some [1, 5, 3, 0x00, 0x13, 0x12, 0xD0, 0x50, 0x23]
      ∧ frameInRange ⟨⟨1, 1, 0⟩, .lifted 40⟩ = true ∧ frameInRange ⟨⟨15, 63, 4294967295⟩, .hold 7 23⟩ = true := by
  decide +kernel

end Sys2Proof.Tests
end

section
/-! The laws of the Line Port and of the causes' levels (R6, R9, R11, R43, R147), kept by every operation and every command. -/

set_option Elab.async false

namespace Sys2Proof.SectionLine

open Sys2Proof.Machine Sys2Proof.Safety

/-- R6, R9, R11, R43, R147: the laws of the transmit queue, the repeat count, the levels of the causes and the offer of READY. -/
structure Legal (s : State) : Prop where
  ordered : QueueOrdered s
  count : CountBelowLimit s
  levels : LevelsLegal s
  ready : ReadyWithdrawn s

variable {s t : State}

/-! Updates that the laws do not read. -/

/-- The laws read the queue, the buffer with its held withdrawal, the repeat count, the Hold Arbiter and whether the station is in READY. -/
theorem Legal.of_link (h : Legal s) (hq : t.lpt.queue = s.lpt.queue) (hb : t.lpt.buffer = s.lpt.buffer)
    (hw : t.lpt.withdrawHeld = s.lpt.withdrawHeld) (hn : t.lpt.count = s.lpt.count) (hh : t.har = s.har)
    (hi : t.ixs.state = s.ixs.state ∨ t.ixs.state ≠ .ready) : Legal t := by
  refine ⟨?_, ?_, ?_, fun l => ?_⟩
  · unfold QueueOrdered; rw [hq]; exact h.ordered
  · unfold CountBelowLimit; rw [hn]; exact h.count
  · unfold LevelsLegal; rw [hh]; exact h.levels
  · obtain ⟨hs, hf, hbuf⟩ := h.ready (hh ▸ l)
    rw [hq, hb, hw]
    exact ⟨hi.elim (fun e => e ▸ hs) id, hf, hbuf⟩

/-- An update of other blocks than the Line Port and the Hold Arbiter that does not enter READY. -/
theorem Legal.of_blocks (h : Legal s) (hl : t.lpt = s.lpt) (hh : t.har = s.har)
    (hi : t.ixs.state = s.ixs.state ∨ t.ixs.state ≠ .ready) : Legal t :=
  h.of_link (by rw [hl]) (by rw [hl]) (by rw [hl]) (by rw [hl]) hh hi

/-- R43: a station in READY announces a level of 3 or lower. -/
theorem Legal.level_of_ready (h : Legal s) (e : s.ixs.state = .ready) : s.har.announcedLevel ≤ 3 := by
  by_contra l
  exact (h.ready (by omega)).1 e

/-- What holds on both ways of a test holds after it. -/
theorem Legal.ite {b : Prop} [Decidable b] (h : Legal s) (k : Legal t) : Legal (if b then s else t) := by
  split
  · exact h
  · exact k

/-! The Line Port. -/

/-- R9, R43: a frame other than READY may be queued always, READY at a level of 3 or lower. -/
theorem Legal.queueFrame_of (h : Legal s) (p : Payload) (hp : p.kind = .ready → s.har.announcedLevel ≤ 3) :
    Legal (s.queueFrame p) := by
  refine ⟨insertFrame_pairwise h.ordered, h.count, h.levels, fun l => ?_⟩
  obtain ⟨hs, hf, hbuf⟩ := h.ready l
  refine ⟨hs, fun f i => ?_, hbuf⟩
  rcases mem_queueFrame i with rfl | i
  · intro e
    exact absurd (hp e) (Nat.not_le.2 l)
  · exact hf f i

theorem Legal.queueFrame (h : Legal s) (p : Payload)
    (hp : p.kind ≠ .ready := by simp [Payload.kind, State.joinPayload, State.stopPayload, positionPayload]) :
    Legal (s.queueFrame p) :=
  h.queueFrame_of p fun e => absurd e hp

/-- R42: a station that announces a level of 3 or lower may offer READY. -/
theorem Legal.queueReady (h : Legal s) (l : s.har.announcedLevel ≤ 3) : Legal (s.queueFrame s.readyPayload) :=
  h.queueFrame_of _ fun _ => l

/-- R11: a withdrawal takes frames out of the queue and is held over the attempt. -/
theorem Legal.withdraw (h : Legal s) (sel : Payload → Bool) : Legal (s.withdraw sel) := by
  refine ⟨List.Pairwise.filter _ h.ordered, h.count, h.levels, fun l => ?_⟩
  obtain ⟨hs, hf, hbuf⟩ := h.ready l
  exact ⟨hs, fun f i => hf f (List.mem_of_mem_filter i), fun f e k => by
    simp [State.withdraw, Lpt.withdraw, hbuf f e k]⟩

/-- R10: the first frame of the queue moves into the buffer; at a level of 4 or higher it is no READY. -/
theorem Legal.startSending (h : Legal s) : Legal s.startSending := by
  unfold State.startSending Lpt.startOwn
  cases e : s.lpt.queue with
  | nil => exact h.of_blocks rfl rfl (.inl rfl)
  | cons f rest =>
    have ho : (f :: rest).Pairwise Before := e ▸ h.ordered
    refine ⟨(List.pairwise_cons.1 ho).2, h.count, h.levels, fun l => ?_⟩
    obtain ⟨hs, hf, -⟩ := h.ready l
    rw [e] at hf
    refine ⟨hs, fun g i => hf g (List.mem_cons_of_mem _ i), fun g i k => ?_⟩
    cases i
    exact absurd k (hf f List.mem_cons_self)

/-- R10, R11, R43: a frame whose attempt ends unobserved goes back in its place; a READY over which a withdrawal is held does not. -/
theorem Legal.giveUp (h : Legal s) : Legal { s with lpt := s.lpt.giveUp } := by
  rcases giveUp_cases s.lpt with ⟨-, e⟩ | ⟨f, b, e⟩
  · exact h.of_blocks e rfl (.inl rfl)
  · rw [e]
    refine ⟨?_, h.count, h.levels, fun l => ?_⟩
    · change List.Pairwise Before (if s.lpt.withdrawHeld then s.lpt.queue else putBack f s.lpt.queue)
      split
      · exact h.ordered
      · exact putBack_pairwise h.ordered
    · obtain ⟨hs, hf, hbuf⟩ := h.ready l
      refine ⟨hs, fun g i => ?_, nofun⟩
      simp only at i
      split at i
      · exact hf g i
      · rename_i w
        rcases mem_putBack i with rfl | i
        · exact fun k => w (hbuf g b k)
        · exact hf g i

/-- R6, R7: the end of an observed frame empties the buffer of an own attempt. -/
theorem Legal.observed (h : Legal s) (own : Bool) : Legal { s with lpt := s.lpt.observed own } := by
  unfold Lpt.observed
  split
  · refine ⟨h.ordered, (by decide : (0 : Nat) < 16), h.levels, fun l => ?_⟩
    obtain ⟨hs, hf, -⟩ := h.ready l
    exact ⟨hs, hf, nofun⟩
  · exact h.of_link rfl rfl rfl rfl rfl (.inl rfl)

/-- R5, R6: a mark counts the attempt below 16, and removes the frame at 16. -/
theorem Legal.mark (h : Legal s) : Legal { s with lpt := s.lpt.mark.1 } := by
  rcases mark_cases s.lpt with ⟨-, e⟩ | ⟨f, -, n, e⟩ | ⟨f, -, -, e⟩ <;> rw [e]
  · exact h.of_link rfl rfl rfl rfl rfl (.inl rfl)
  · have g := h.giveUp
    exact ⟨g.ordered, n, g.levels, g.ready⟩
  · exact h.observed true

/-! The Hold Arbiter. -/

/-- R147, R149: setting a cause leaves the levels and the announced pair. -/
theorem Legal.setPending (h : Legal s) (c : Cause) (b : Bool) : Legal { s with har := s.har.setPending c b } :=
  ⟨h.ordered, h.count, ⟨by simp [h.levels.1], fun d => by simpa using h.levels.2 d⟩, h.ready⟩

theorem Legal.refreshPins (h : Legal s) : Legal s.refreshPins := ⟨h.ordered, h.count, h.levels, h.ready⟩

/-- R43: at an announced level of 4 or higher `leaveReady` establishes the law of READY. -/
theorem legal_leaveReady (ho : QueueOrdered s) (hc : CountBelowLimit s) (hl : LevelsLegal s) : Legal s.leaveReady := by
  refine ⟨?_, ?_, ?_, fun _ => ⟨leaveReady_state s, fun f i => ?_, fun f b k => ?_⟩⟩
  · unfold QueueOrdered; rw [leaveReady_lpt]; exact List.Pairwise.filter _ ho
  · unfold CountBelowLimit; rw [leaveReady_lpt]; exact hc
  · unfold LevelsLegal; rw [leaveReady_har]; exact hl
  · rw [leaveReady_lpt] at i
    simpa [ofKind] using (List.mem_filter.1 i).2
  · rw [leaveReady_lpt] at b ⊢
    have b' : s.lpt.buffer = some f := b
    simp [Lpt.withdraw, b', ofKind, k]

theorem Legal.renewJoin (h : Legal s) : Legal s.renewJoin :=
  (h.queueFrame _).ite h

/-- R43, R152, R153: forming the announced pair anew keeps the laws, for a rise to 4 or higher withdraws READY. -/
theorem Legal.announce (h : Legal s) : Legal s.announce := by
  have queued : QueueOrdered s.announced ∧ CountBelowLimit s.announced := by
    have g : Legal (s.queueFrame (.hold s.har.pair.1 s.har.pair.2)) := h.queueFrame _
    unfold State.announced State.renewJoin
    split
    · exact ⟨insertFrame_pairwise g.ordered, g.count⟩
    · exact ⟨g.ordered, g.count⟩
  have levels : LevelsLegal s.announced := by
    have e : s.announced.har.causes = s.har.causes := by simp [State.announced]
    exact ⟨by rw [e]; exact h.levels.1, fun c => by unfold Har.level; rw [e]; exact h.levels.2 c⟩
  rcases announce_cases s with ⟨-, e⟩ | ⟨-, l, e⟩ | ⟨-, -, e⟩ <;> rw [e]
  · exact h
  · refine ⟨queued.1, queued.2, levels, fun k => ?_⟩
    have a : s.announced.har.announcedLevel = s.har.pair.1 := by simp [State.announced]
    omega
  · exact legal_leaveReady queued.1 queued.2 levels

theorem Legal.queueStop (h : Legal s) (n : Nat) : Legal (s.queueStop n) := h.queueFrame _

theorem Legal.dropDrive (h : Legal s) : Legal s.dropDrive := h.of_blocks (by simp) (by simp) (.inl (by simp))

theorem Legal.restart (h : Legal s) : Legal s.restart := h.of_blocks (by simp) (by simp) (.inl (by simp))

theorem Legal.raise (h : Legal s) (c : Cause) : Legal (s.raise c) := by
  by_cases k : s.offline ∨ s.har.level c = 0 ∨ s.har.isPending c
  · rw [raise_ignored s c k]; exact h
  · rw [raise_taken s c k]
    have a := (h.setPending c true).announce
    dsimp only
    split <;> split
    · exact (a.queueStop _).dropDrive
    · exact a.dropDrive
    · exact a.queueStop _
    · exact a

theorem Legal.unpend (h : Legal s) (c : Cause) : Legal (s.unpend c) := by
  unfold State.unpend
  split
  · have a := (h.setPending c false).announce
    dsimp only
    split
    · exact a.restart
    · exact a
  · exact h

theorem Legal.refreshCauses (h : Legal s) : Legal s.refreshCauses := by
  unfold State.refreshCauses
  generalize Cause.selfClearing = l
  induction l generalizing s with
  | nil => exact h
  | cons c l ih =>
    refine ih ?_
    unfold State.refreshCause
    split
    · exact h.raise c
    · exact h.unpend c

theorem Legal.close (h : Legal s) : Legal s.close := h.refreshCauses.refreshPins

/-! The peer table, the sequencer, the shuttle and the Cell Port. -/

theorem Legal.updatePeer (h : Legal s) (i : Nat) (f : Peer → Peer) : Legal (s.updatePeer i f) :=
  h.of_blocks rfl rfl (.inl rfl)

theorem Legal.updatePeers (h : Legal s) (f : Peer → Peer) : Legal (s.updatePeers f) := h.of_blocks rfl rfl (.inl rfl)

theorem Legal.enter (h : Legal s) (st : SeqState) (n : st ≠ .ready := by decide) : Legal (s.enter st) :=
  h.of_blocks rfl rfl (.inr n)

theorem Legal.goStep (h : Legal s) (st : IndexStep) : Legal (s.goStep st) := h.of_blocks rfl rfl (.inl rfl)

/-- An update of the drive, the profile, the fixture and the sequencer's fields other than its state. -/
theorem Legal.of_rest (h : Legal s) (hl : t.lpt = s.lpt := by rfl) (hh : t.har = s.har := by rfl)
    (hi : t.ixs.state = s.ixs.state := by rfl) : Legal t := h.of_blocks hl hh (.inl hi)

theorem Legal.moveShuttle (h : Legal s) (st : ShuttleState) : Legal (s.moveShuttle st) := by
  rcases moveShuttle_cases s st with ⟨-, e⟩ | ⟨-, e⟩ <;> rw [e] <;> exact h.of_rest

theorem Legal.reposition (h : Legal s) (u : RepositionUse) (x : Int) : Legal (s.reposition u x) := h.of_rest

theorem Legal.returnFrom (h : Legal s) (x : Int) : Legal (s.returnFrom x) := h.of_rest

theorem Legal.setFixture (h : Legal s) (x : FixtureStatus) (r : Option PalletRecord) : Legal (s.setFixture x r) := h.of_rest

theorem Legal.respond (h : Legal s) (n : Nat) (k : Byte) (x : Status) (f : List Byte) : Legal (s.respond n k x f) := h.of_rest

theorem Legal.refuse (h : Legal s) (n : Nat) (k : Byte) (x : Status) : Legal (s.refuse n k x) := h.of_rest

/-! The Fixture Sequencer and the records. -/

theorem Legal.liftReported (h : Legal s) : Legal s.liftReported :=
  ((h.queueFrame _).enter _).ite h

theorem Legal.enterWorking (h : Legal s) : Legal s.enterWorking := (h.goStep _).enter _

theorem Legal.fixtureReported (h : Legal s) : Legal s.fixtureReported := by
  unfold State.fixtureReported
  split
  · exact (Legal.liftReported h.of_rest).ite h
  · exact h.enterWorking.ite h
  · exact h.enterWorking.ite h
  · exact h

theorem Legal.openFixture (h : Legal s) : Legal s.openFixture := Legal.fixtureReported h.of_rest

theorem Legal.seatFixture (h : Legal s) : Legal s.seatFixture := Legal.fixtureReported h.of_rest

theorem Legal.keepOpen (h : Legal s) : Legal s.keepOpen := h.openFixture

theorem Legal.raiseOpt (h : Legal s) (c : Option Cause) : Legal (s.raiseOpt c) := by
  cases c with
  | none => exact h
  | some c => exact h.raise c

theorem Legal.decideSeating (h : Legal s) : Legal s.decideSeating := by
  have g : Legal ({ s with ixs := { s.ixs with upstreamTimer := none } }.goStep .seat) := h.of_rest
  exact ((g.setFixture _ _).raiseOpt _).keepOpen.ite ((g.setFixture _ _).raiseOpt _).seatFixture

theorem Legal.moveRecord (h : Legal s) : Legal s.moveRecord := by
  unfold State.moveRecord
  refine Legal.keepOpen (Legal.setFixture ?_ _ _)
  dsimp only
  split
  · exact h.of_rest
  · have g : Legal (s.queueFrame (.handover s.ixs.index s.recordAtOrigin)) := h.queueFrame _
    exact g.of_rest

theorem Legal.updateImage (h : Legal s) (m : Nat) (f : ReadyFields) : Legal (s.updateImage m f) := by
  have g : Legal { s with sim := s.sim.write m (slotOf f) } := h.of_rest
  exact (g.raise _).ite g

/-! The Index Sequencer. -/

theorem Legal.enterReleasing (h : Legal s) : Legal s.enterReleasing := by
  unfold State.enterReleasing
  refine Legal.openFixture ?_
  have stop {u : State} (k : Legal u) :
      Legal (if 6 ≤ u.har.announcedLevel then u.queueStop u.har.announcedCause else u) := (k.queueStop _).ite k
  have raised {u : State} (k : Legal u) : Legal (if u.inputs.machClear then u else u.raise .machIntrusion) :=
    k.ite (k.raise _)
  exact raised (stop (h.of_blocks rfl rfl (.inr nofun)))

theorem Legal.checkReadyBarrier (h : Legal s) : Legal s.checkReadyBarrier :=
  h.enterReleasing.ite h

theorem Legal.abandonSeat (h : Legal s) : Legal s.abandonSeat := by
  have g : Legal ({ s with ixs := { s.ixs with loweringTimer := none } }.goStep .abandonSeat) := h.of_rest
  exact g.fixtureReported.ite g.seatFixture

theorem Legal.abandon (h : Legal s) : Legal s.abandon := by
  unfold State.abandon
  have g : Legal { s with ixs := { s.ixs with liftBarrierTimer := none } }.clearReady.clearLifted := h.of_rest
  have w := (g.withdraw (ofKind .lifted)).withdraw (isStopOf s.ixs.index)
  dsimp only
  split
  · exact Legal.abandonSeat (w.of_blocks rfl rfl (.inr nofun))
  · exact w.of_blocks rfl rfl (.inr nofun)

theorem Legal.startMotion (h : Legal s) (p : Pgn) (x : LineTime) : Legal (s.startMotion p x) := by
  unfold State.startMotion
  have g : Legal ({ s with
      pgn := p
      ssv := { s.ssv.endHoming with repositionTarget := none, repositionUse := none }
      ixs := { s.ixs with origin := some x, resumeStep := .none } }) := h.of_rest
  have m := (g.moveShuttle .forward).enter .moving
  exact (m.queueStop _).ite m

theorem Legal.checkLiftedBarrier (h : Legal s) (x : LineTime) : Legal (s.checkLiftedBarrier x) := by
  unfold State.checkLiftedBarrier
  split
  · have g : Legal { s with ixs := { s.ixs with liftBarrierTimer := none } } := h.of_rest
    exact (g.withdraw _).startMotion _ _
  · exact h

theorem Legal.checkResumeBarrier (h : Legal s) (x : LineTime) : Legal (s.checkResumeBarrier x) :=
  (h.startMotion _ _).ite h

theorem Legal.stopMotion (h : Legal s) (x : LineTime) : Legal (s.stopMotion x) := by
  unfold State.stopMotion
  dsimp only
  split
  · refine Legal.enter (Legal.moveShuttle ?_ _) _
    exact h.of_rest
  · exact h.of_rest

theorem Legal.stopResume (h : Legal s) : Legal s.stopResume := by
  have g : Legal (s.clearResume.withdraw (ofKind .resume)) := (h.updatePeers _).withdraw _
  exact g.of_blocks rfl rfl (.inr nofun)

theorem Legal.takeStop (h : Legal s) (x : LineTime) : Legal (s.takeStop x) := by
  unfold State.takeStop
  have g := h.withdraw (isStopOf s.ixs.index)
  dsimp only
  split
  · exact g.abandon
  · exact g.abandon
  · exact g.stopMotion x
  · exact g.stopResume
  · exact g.stopResume
  · exact g

theorem Legal.rampEnded (h : Legal s) : Legal s.rampEnded := by
  have g := h.moveShuttle .haltedMid
  exact (g.enter _).ite g

theorem Legal.enterLowering (h : Legal s) : Legal s.enterLowering := by
  unfold State.enterLowering
  have g : Legal (({ s with ixs := { s.ixs with loweringTimer := some Config.inPositionTime, sinceCompletion := 0 } }.goStep
      .inPosition).enter .lowering) := h.of_blocks rfl rfl (.inr nofun)
  exact g.ite g.restart

theorem Legal.commonCompleted (h : Legal s) : Legal s.commonCompleted := by
  have g := h.moveShuttle .atEnd
  exact (Legal.enterLowering g.of_rest).ite g

theorem Legal.enterSeating (h : Legal s) : Legal s.enterSeating := by
  unfold State.enterSeating
  have g := (h.goStep .upstream).enter .seating
  dsimp only
  split
  · exact Legal.enterWorking g.of_rest
  · split
    · exact g.decideSeating
    · exact (Legal.raise g.of_rest _).ite g.of_rest

theorem Legal.commandReturn (h : Legal s) : Legal s.commandReturn :=
  (h.moveShuttle _).ite ((h.moveShuttle _).returnFrom _)

theorem Legal.tryLowered (h : Legal s) : Legal s.tryLowered :=
  ((h.queueFrame _).commandReturn.enterSeating).ite h

theorem Legal.liftDownReported (h : Legal s) : Legal s.liftDownReported := by
  unfold State.liftDownReported
  split
  · exact h.abandonSeat
  · exact Legal.tryLowered h.of_rest
  · exact h.tryLowered

theorem Legal.lowerPallet (h : Legal s) : Legal s.lowerPallet := by
  unfold State.lowerPallet
  have g : Legal ({ s with
      ssv := s.ssv.lowerLift
      ixs := { s.ixs with loweringTimer := some (Config.timeout s.items.lowerTimeout) } }.goStep .liftDown) := h.of_rest
  exact g.liftDownReported.ite g

theorem Legal.endUpstreamWait (h : Legal s) (m : Nat) : Legal (s.endUpstreamWait m) :=
  h.decideSeating.ite h

/-- R6, R43: the owner of a removed frame queues READY again only in READY. -/
theorem Legal.frameRemoved (h : Legal s) (p : Payload) : Legal (s.frameRemoved p) := by
  unfold State.frameRemoved
  split
  · split
    · rename_i e; exact h.queueReady (h.level_of_ready e)
    · exact h
  · exact (h.queueFrame _).ite h
  · exact (h.queueFrame _).ite h
  · exact (h.queueStop _).ite h
  · exact (h.queueFrame _).ite h
  · exact h.queueFrame _
  · split
    · exact (Legal.tryLowered h.of_rest).ite h
    · exact h
  · exact h
  · exact h
  · exact h

/-! The Shuttle Supervisor. -/

theorem Legal.reportWord (h : Legal s) : Legal s.reportWord := by
  have offer {u : State} (k : Legal u) : Legal u.offerResume :=
    Legal.queueFrame (k.of_rest : Legal { u with ixs := { u.ixs with resumeStep := .none } }) _
  have pass {u : State} (k : Legal u) : Legal u.passHomeCheck := Legal.moveShuttle k.of_rest _
  have offered {u : State} (k : Legal u) : Legal (if u.ixs.state = .resumeWait ∧ u.ixs.resumeStep = .awaitWord ∧ u.ssv.drive
      ∧ u.atStopSetpoint then u.offerResume else u) := (offer k).ite k
  have passed {u : State} (k : Legal u) : Legal (if u.ssv.homeCheck ∧ u.inputs.home ∧ u.inPosition then u.passHomeCheck
      else u) := (pass k).ite k
  exact passed (offered (h.lowerPallet.ite h))

theorem Legal.sendWord (h : Legal s) : Legal s.sendWord := by
  unfold State.sendWord
  exact (Legal.raise h.of_rest _).ite h.of_rest

theorem Legal.startWord (h : Legal s) : Legal s.startWord := h.sendWord.reportWord

theorem Legal.failHoming (h : Legal s) : Legal s.failHoming := Legal.moveShuttle h.of_rest _

theorem Legal.homingRunEnded (h : Legal s) : Legal s.homingRunEnded := by
  unfold State.homingRunEnded
  split
  · exact h.of_rest
  · exact h.failHoming
  · exact h

theorem Legal.offCamEnded (h : Legal s) : Legal s.offCamEnded :=
  (h.failHoming.raise _).ite h.of_rest

theorem Legal.repositionCompleted (h : Legal s) : Legal s.repositionCompleted := by
  unfold State.repositionCompleted
  have g : Legal { s with ssv := { s.ssv with repositionTarget := none, repositionUse := none } } := h.of_rest
  dsimp only
  split
  · exact g.moveShuttle _
  · exact ((g.moveShuttle _).of_rest).ite (g.moveShuttle _)
  · exact g.failHoming
  · exact g.of_rest
  · exact g.of_rest
  · exact g.offCamEnded
  · exact g

theorem Legal.localCompleted (h : Legal s) : Legal s.localCompleted := by
  unfold State.localCompleted
  split
  · exact h.of_rest
  · exact h.repositionCompleted
  · exact h

theorem Legal.periodOutcome (h : Legal s) (o : PeriodOutcome) : Legal (s.periodOutcome o) := by
  unfold State.periodOutcome
  split
  · exact h
  · exact h.commonCompleted.ite h.localCompleted
  · exact h.homingRunEnded.ite h.rampEnded

theorem Legal.wordAtPeriod (h : Legal s) : Legal s.wordAtPeriod :=
  h.sendWord.ite h.of_rest

theorem Legal.reportPosition (h : Legal s) : Legal s.reportPosition :=
  (h.queueFrame _).ite h

theorem Legal.outcomeAfterWord (h : Legal s) (o : PeriodOutcome) : Legal (s.outcomeAfterWord o) :=
  h.ite (h.periodOutcome o)

theorem Legal.endPeriod (h : Legal s) : Legal s.endPeriod := by
  unfold State.endPeriod
  split
  · have g : ∀ p : Pgn, Legal { s with pgn := p } := fun _ => h.of_rest
    dsimp only
    split
    · exact ((g _).wordAtPeriod.reportPosition.outcomeAfterWord _).reportWord
    · exact (g _).wordAtPeriod.reportPosition.outcomeAfterWord _
  · exact h

theorem Legal.reachOrigin (h : Legal s) : Legal s.reachOrigin := by
  have moved {u : State} (k : Legal u) : Legal (if u.pgn.kind = .forward then u.moveRecord else u) := k.moveRecord.ite k
  have completed {u : State} (k : Legal u) : Legal (if u.pgn.phase = .running ∧ u.pgn.periods = 0
      then { u with pgn := u.pgn.complete }.commonCompleted else u) := (Legal.commonCompleted k.of_rest).ite k
  exact (completed (moved h.of_rest)).ite h

theorem Legal.startLocal (h : Legal s) : Legal s.startLocal := by
  unfold State.startLocal
  split
  · dsimp only
    split
    · exact Legal.localCompleted h.of_rest
    · exact h.of_rest
  · exact h

/-! The Line Time Unit. -/

theorem Legal.beat (h : Legal s) (b : LineTime) : Legal (s.beat b) := by
  have g : Legal (s.takeBeat b) := by
    unfold State.takeBeat
    refine Legal.queueFrame ?_ _
    exact h.of_link rfl rfl rfl rfl rfl (.inl rfl)
  unfold State.beat
  exact (g.raise _).ite g

/-! The frames of members. -/

theorem Legal.clearAtForming (h : Legal s) : Legal s.clearAtForming := by
  have renewed {u : State} (k : Legal u) : Legal (if u.ixs.state = .ready then u.queueFrame u.readyPayload else u) := by
    split
    · rename_i e; exact k.queueReady (k.level_of_ready e)
    · exact k
  exact renewed (Legal.ite (h.updatePeers _) h)

theorem Legal.adoptIndex (h : Legal s) (i : IndexNo) : Legal (s.adoptIndex i) := by
  unfold State.adoptIndex
  split
  · dsimp only
    split
    · exact h.of_rest
    · exact h.of_rest
  · exact h

theorem Legal.deliverJoin (h : Legal s) (d : Delivery) (f : JoinFields) : Legal (s.deliverJoin d f) := by
  unfold State.deliverJoin
  have g : Legal (s.writeJoin d.member f) := h.updatePeer _ _
  dsimp only
  split
  · refine Legal.endUpstreamWait ?_ _
    unfold State.answerJoin
    split
    · exact g.clearAtForming
    · exact g.clearAtForming.queueFrame _
  · exact g.adoptIndex _

theorem Legal.deliverHandover (h : Legal s) (d : Delivery) (i : IndexNo) (c : Option PalletRecord) :
    Legal (s.deliverHandover d i c) := by
  unfold State.deliverHandover State.ownHandoverObserved
  split
  · split
    · exact (Legal.tryLowered h.of_rest).ite h
    · exact h
  · exact h.of_rest.ite h

theorem Legal.deliverResume (h : Legal s) (d : Delivery) (x : LineTime) (i : IndexNo) (sp : Nat) :
    Legal (s.deliverResume d x i sp) := by
  unfold State.deliverResume
  split
  · have g := h.updatePeer d.member fun p => { p with resume := true }
    dsimp only
    refine Legal.checkResumeBarrier ?_ x
    split
    · exact g
    · exact g.raise _
  · exact h

/-- Table 0-2: what the owner of a frame's kind does keeps the laws. -/
theorem Legal.deliver (h : Legal s) (d : Delivery) (f : Frame) : Legal (s.deliver d f) := by
  unfold State.deliver
  split
  · exact ((h.updatePeer _ _).takeStop _).ite h
  · exact ((h.updatePeer _ _).checkLiftedBarrier _).ite h
  · exact ((h.updatePeer _ _).endUpstreamWait _).ite (h.updatePeer _ _)
  · exact h.deliverResume _ _ _ _
  · exact (((h.updatePeer _ _).updateImage _ _).checkReadyBarrier).ite h
  · exact h.updatePeer _ _
  · exact h.deliverHandover _ _ _
  · exact ((h.updatePeer _ _).raise _).ite (h.updatePeer _ _)
  · exact (h.updatePeer _ _).ite h.of_rest
  · exact h.deliverJoin _ _

theorem Legal.marked (h : Legal s) : Legal s.marked := by
  unfold State.marked
  dsimp only
  split
  · exact ((h.mark.raise _).frameRemoved _).close
  · exact h.mark

theorem Legal.take (h : Legal s) (f : Frame) : Legal (s.take f) := by
  have g := h.observed (s.isOwnAttempt f)
  rcases take_cases s f with ⟨-, e⟩ | ⟨-, -, e⟩ | ⟨-, -, e⟩ <;> rw [e]
  · exact g
  · exact Legal.close (g.of_link rfl rfl rfl rfl rfl (.inl rfl))
  · have k : Legal (({ s with lpt := s.lpt.observed (s.isOwnAttempt f) } : State).hear
        (s.memberList.idxOf f.header.sender)) := g.updatePeer _ _
    exact (k.deliver _ f).close

theorem Legal.observe (h : Legal s) (f : Frame) : Legal (s.observe f) := by
  have y : Legal (s.yieldTo f) := by
    unfold State.yieldTo
    split
    · exact h.giveUp
    · exact h
  rcases observe_cases s f with ⟨-, e⟩ | ⟨-, -, e⟩ | ⟨-, -, e⟩ <;> rw [e]
  · exact h
  · exact y.marked
  · exact y.take f

/-! The commands. -/

/-- Every state that an answer gives keeps the laws. -/
def AnswerLegal (a : Answer) : Prop := ∀ t : State, a = .next t → Legal t

theorem Legal.next (h : Legal s) : AnswerLegal (.next s) := fun _ e => by cases e; exact h

/-- An answer by a test. -/
theorem AnswerLegal.ite {b : Prop} [Decidable b] {x y : Answer} (h : AnswerLegal x) (k : AnswerLegal y) :
    AnswerLegal (if b then x else y) := by
  split
  · exact h
  · exact k

/-- An answer that takes place under a condition, and leaves the state as it is without it. -/
theorem Legal.nextIf (h : Legal s) {b : Prop} [Decidable b] (k : Legal t) : AnswerLegal (if b then .next t else .next s) :=
  k.next.ite h.next

/-- R147, R161: a stored level is raised to its cause's floor. -/
theorem causeLevelValue_bounds {x l : Byte} {c : Cause} {n : Nat} (e : causeLevelValue x l = some (c, n)) :
    c.floor ≤ n ∧ n ≤ 7 := by
  have f : c.floor ≤ 7 := by cases c <;> decide
  unfold causeLevelValue at e
  split at e
  · split at e
    · cases e; omega
    · cases e
  · cases e

/-- R147: a level within its bounds is stored for one cause. -/
theorem Legal.setLevel (h : Legal s) {c : Cause} {n : Nat} (b : c.floor ≤ n ∧ n ≤ 7) (p : Bool) :
    Legal { s with har := { s.har with causes := s.har.causes.set c.number ⟨n, p⟩ } } := by
  refine ⟨h.ordered, h.count, ⟨by simp [h.levels.1], fun d => ?_⟩, h.ready⟩
  have old := h.levels.2 d
  unfold Har.level at old ⊢
  simp only [List.getD_eq_getElem?_getD, List.getElem?_set] at old ⊢
  split
  · rename_i e
    rw [if_pos (by rw [h.levels.1]; exact c.number_lt)]
    exact Cause.number_inj e ▸ b
  · exact old

theorem Legal.execSetItem (h : Legal s) (w : ItemWrite) : AnswerLegal (execSetItem w s) := by
  unfold Machine.execSetItem
  dsimp only
  split
  · split
    · split
      · rename_i e
        exact ((h.setLevel (causeLevelValue_bounds e) _).respond _ _ _ _).next
      · exact (h.refuse _ _ _).next
    · split
      · exact Legal.next h.of_rest
      · exact (h.refuse _ _ _).next
  · exact (h.refuse _ _ _).next

theorem Legal.fixtureAtJoin (h : Legal s) : Legal s.fixtureAtJoin := by
  unfold State.fixtureAtJoin
  split
  · have g := h.setFixture .unknown none
    dsimp only
    split
    · exact g.of_rest
    · exact g.of_rest
    · exact g
  · exact (h.setFixture _ _).keepOpen

theorem Legal.raiseInputs (h : Legal s) : Legal s.raiseInputs := by
  have fault : Legal (if s.inputs.driveFault then s.raise .driveFault else s) := (h.raise _).ite h
  exact (fault.raise _).ite fault

theorem Legal.takeJoin (h : Legal s) : Legal s.takeJoin := by
  have g : Legal s.formed := h.of_blocks rfl rfl (.inr nofun)
  exact (g.fixtureAtJoin.queueFrame _).raiseInputs.close

theorem Legal.execJoin (h : Legal s) : AnswerLegal (execJoin s) :=
  .ite (.ite (.ite (h.takeJoin.respond _ _ _ _).next (h.refuse _ _ _).next) (h.refuse _ _ _).next) (h.refuse _ _ _).next

theorem Legal.takeRecord (h : Legal s) (r : PalletRecord) : Legal (s.takeRecord r) :=
  (((h.setFixture _ _).goStep _).enter _).seatFixture.close

theorem Legal.execLoadEntry (h : Legal s) (os : List Byte) : AnswerLegal (execLoadEntry os s) := by
  unfold Machine.execLoadEntry
  split
  · exact (h.refuse _ _ _).next
  · exact .ite (h.refuse _ _ _).next (.ite (h.refuse _ _ _).next ((h.takeRecord _).respond _ _ _ _).next)

theorem Legal.execLoadFixture (h : Legal s) (os : List Byte) : AnswerLegal (execLoadFixture os s) := by
  unfold Machine.execLoadFixture
  split
  · exact (h.refuse _ _ _).next
  · exact .ite (h.refuse _ _ _).next (.ite (h.refuse _ _ _).next ((h.takeRecord _).respond _ _ _ _).next)

theorem Legal.execGetIncoming (h : Legal s) : AnswerLegal (execGetIncoming s) := by
  unfold Machine.execGetIncoming
  split
  · exact (h.refuse _ _ _).next
  · split <;> exact (h.respond _ _ _ _).next

theorem Legal.execGetPeer (h : Legal s) (b : Byte) : AnswerLegal (execGetPeer b s) := by
  unfold Machine.execGetPeer
  split
  · exact (h.refuse _ _ _).next
  · split
    · exact (h.refuse _ _ _).next
    · split
      · exact (h.respond _ _ _ _).next
      · exact (h.refuse _ _ _).next

theorem Legal.execClearCause (h : Legal s) (b : Byte) : AnswerLegal (execClearCause b s) := by
  unfold Machine.execClearCause
  split
  · exact (h.refuse _ _ _).next
  · exact .ite (h.refuse _ _ _).next (.ite (h.refuse _ _ _).next (((h.unpend _).ite h).close.respond _ _ _ _).next)

theorem Legal.execReportResult (h : Legal s) (b : Byte) : AnswerLegal (execReportResult b s) := by
  unfold Machine.execReportResult
  split
  · exact (h.refuse _ _ _).next
  · exact .ite (Legal.next h.of_rest) (h.refuse _ _ _).next

theorem Legal.execTakeExitRecord (h : Legal s) : AnswerLegal (execTakeExitRecord s) := by
  unfold Machine.execTakeExitRecord
  split
  · exact (h.refuse _ _ _).next
  · split
    · have g : ∀ r : Rst, Legal { s with rst := r } := fun _ => h.of_rest
      exact ((g _).close.respond _ _ _ _).next
    · exact (h.respond _ _ _ _).next

theorem Legal.resumeOffer (h : Legal s) : Legal s.resumeOffer := by
  unfold State.resumeOffer
  split
  · have g : Legal { s with ixs := { s.ixs with resumeStep := .none } } := h.of_rest
    exact g.queueFrame _
  · exact Legal.reposition (Legal.moveShuttle h.of_rest _) _ _

theorem Legal.execResume (h : Legal s) : AnswerLegal (execResume s) := by
  have g : Legal s.resumeDrive := Legal.ite h.of_rest h.of_rest
  exact .ite (.ite (h.refuse _ _ _).next ((g.enter _).resumeOffer.close.respond _ _ _ _).next) (h.refuse _ _ _).next

/-- R147, R160: the default level of a cause lies between its floor and 7. -/
theorem defaultLevel_bounds (c : Cause) : c.floor ≤ c.defaultLevel ∧ c.defaultLevel ≤ 7 := by cases c <;> decide

/-- R160: after reset every cause has its default level and none is pending. -/
theorem reset_cause (c : Cause) : Har.reset.level c = c.defaultLevel ∧ Har.reset.isPending c = false := by
  cases c <;> decide

/-- R12, R147, R160: the state after reset satisfies the laws. -/
theorem legal_resetBy (cause : ResetCause) : Legal (State.resetBy cause) :=
  ⟨List.Pairwise.nil, (by decide : (0 : Nat) < 16), ⟨rfl, fun c => (reset_cause c).1 ▸ defaultLevel_bounds c⟩,
    fun l => absurd l (by decide : ¬4 ≤ (0 : Nat))⟩

theorem legal_resetPart (s : State) (cause : ResetCause) : Legal (s.resetPart cause) := (legal_resetBy cause).of_rest

theorem Legal.execReset (h : Legal s) (cause : ResetCause) (b : Bool) : AnswerLegal (execReset cause b s) :=
  .ite (.ite (legal_resetPart _ cause).next (Legal.next h.of_rest)) (legal_resetPart s cause).next

theorem Legal.execFrameStart (h : Legal s) (own : Bool) : AnswerLegal (execFrameStart own s) :=
  .ite (.ite (.ite h.next h.startSending.next) (Legal.next (h.of_link rfl rfl rfl rfl rfl (.inl rfl)))) h.next

theorem Legal.execBeatInstant (h : Legal s) : AnswerLegal (execBeatInstant s) := by
  unfold Machine.execBeatInstant
  split
  · exact (h.beat _).close.next
  · exact h.next

theorem Legal.startHoming (h : Legal s) : Legal s.startHoming := Legal.ite h.of_rest h.of_rest

theorem Legal.execReadyOffer (h : Legal s) : AnswerLegal (execReadyOffer s) := by
  unfold Machine.execReadyOffer
  split
  · rename_i m
    have l : s.har.announcedLevel ≤ 3 := by
      simp only [State.mayOfferReady, Bool.and_eq_true, decide_eq_true_eq] at m
      exact m.1.2
    have g := h.queueReady l
    exact Legal.next (Legal.close ⟨g.ordered, g.count, g.levels, fun k => absurd l (Nat.not_le.2 k)⟩)
  · exact h.next

theorem Legal.giveUpHoming (h : Legal s) : Legal s.giveUpHoming := by
  unfold State.giveUpHoming
  split
  · exact h.of_rest
  · exact h.of_rest
  · exact h.of_rest
  · exact h.of_rest
  · exact h.failHoming
  · exact h

theorem Legal.setSettleMark (h : Legal s) : Legal s.setSettleMark := (Legal.fixtureReported h.of_rest).ite h.of_rest

theorem Legal.execHomeSensorChange (h : Legal s) (on : Bool) : AnswerLegal (execHomeSensorChange on s) :=
  .ite h.next (.ite (Legal.next h.of_rest) (Legal.next h.of_rest))

theorem Legal.execLiftUpSensorOn (h : Legal s) : AnswerLegal (execLiftUpSensorOn s) :=
  .ite h.next (.ite (Legal.next (Legal.close (Legal.liftReported h.of_rest))) (Legal.next h.of_rest))

theorem Legal.execLiftDownSensorOn (h : Legal s) : AnswerLegal (execLiftDownSensorOn s) :=
  .ite h.next (.ite (Legal.next (Legal.close (Legal.liftDownReported h.of_rest))) (Legal.next h.of_rest))

theorem Legal.execLiftSensorOff (h : Legal s) (up : Bool) : AnswerLegal (execLiftSensorOff up s) :=
  .ite h.next (.ite (Legal.next h.of_rest) (Legal.next h.of_rest))

theorem Legal.execMachClearDrop (h : Legal s) : AnswerLegal (execMachClearDrop s) :=
  .ite (.ite (Legal.next (Legal.close (Legal.raise h.of_rest _))) (Legal.next h.of_rest)) h.next

theorem Legal.losePressure (h : Legal s) : Legal s.losePressure := by
  have lost {u : State} (k : Legal u) : Legal (if s.fxs.state = .secured ∧ s.ixs.state.losesPressure
      then u.raise .clampPressureLost else u) := (k.raise _).ite k
  exact (lost h.of_rest).fixtureReported.ite (lost h.of_rest)

theorem Legal.loseLocators (h : Legal s) (a b : Bool) : Legal (s.loseLocators a b) := by
  have g : Legal { s with inputs := { s.inputs with locator1 := a, locator2 := b } } := h.of_rest
  exact (g.raise _).ite ((Legal.fixtureReported g.of_rest).ite g)

/-- R6, R9, R11, R43, R147: every command keeps the laws. -/
theorem Legal.exec (h : Legal s) (i : Instr) : AnswerLegal (exec i s) := by
  cases i with
  | setItem w => exact h.execSetItem w
  | join => exact h.execJoin
  | getStatus => exact (h.respond _ _ _ _).next
  | getCauses => exact (h.respond _ _ _ _).next
  | clearCause c => exact h.execClearCause c
  | setAttnMask m => exact .ite (Legal.next ⟨h.ordered, h.count, h.levels, h.ready⟩) (h.refuse _ _ _).next
  | reportResult c => exact h.execReportResult c
  | loadEntry os => exact h.execLoadEntry os
  | loadFixture os => exact h.execLoadFixture os
  | declareEmpty => exact .ite ((h.setFixture _ _).keepOpen.close.respond _ _ _ _).next (h.refuse _ _ _).next
  | getFixtureRecord => exact (h.respond _ _ _ _).next
  | getIncoming => exact h.execGetIncoming
  | takeExitRecord => exact h.execTakeExitRecord
  | getImage => exact .ite (h.refuse _ _ _).next (h.respond _ _ _ _).next
  | getPeer n => exact h.execGetPeer n
  | resume => exact h.execResume
  | malformedRequest k => exact (h.refuse _ _ _).next
  | noneTransaction n => exact Legal.next h.of_rest
  | reset c b => exact h.execReset c b
  | linkIdleSeen => exact Legal.next (h.of_link rfl rfl rfl rfl rfl (.inl rfl))
  | frameStart own => exact h.execFrameStart own
  | arbitrationLost => exact h.giveUp.next
  | frameMarked => exact h.nextIf h.marked
  | foreignFrameObserved f => exact (h.observe _).next
  | beatObserved x p => exact (h.observe _).next
  | joinObserved x p => exact (h.observe _).next
  | readyObserved x p => exact (h.observe _).next
  | liftedObserved x p => exact (h.observe _).next
  | loweredObserved x p => exact (h.observe _).next
  | resumeObserved x p q => exact (h.observe _).next
  | stopObserved x p q r => exact (h.observe _).next
  | holdObserved x p q => exact (h.observe _).next
  | positionObserved x p => exact (h.observe _).next
  | handoverObserved x p q => exact (h.observe _).next
  | foreignFrameTimerExpiry => exact h.nextIf (Legal.close (h.of_link rfl rfl rfl rfl rfl (.inl rfl)))
  | beatInstant => exact h.execBeatInstant
  | memberSilent n => exact h.nextIf (h.updatePeer _ _).close
  | joinRepetition =>
    have g : Legal { s with ixs := { s.ixs with joinTimer := some Config.joinRepeat } } := h.of_rest
    exact h.nextIf (g.queueFrame _)
  | readyOffer => exact h.execReadyOffer
  | formingExit =>
    have g : Legal { s with ixs := { s.ixs with state := .working, joinTimer := none } } := h.of_blocks rfl rfl (.inr nofun)
    exact h.nextIf (g.withdraw _).close
  | homingStart => exact h.nextIf h.startHoming
  | liftBarrierTimerExpiry => exact h.nextIf (Legal.close (Legal.raise h.of_rest _))
  | loweringTimerExpiry => exact h.nextIf (Legal.close (Legal.raise h.of_rest _))
  | upstreamTimerExpiry => exact h.nextIf (Legal.close (Legal.raise h.of_rest _))
  | homingTimerExpiry => exact h.nextIf (Legal.close (Legal.raise (Legal.giveUpHoming h.of_rest) _))
  | homeCheckTimerExpiry => exact h.nextIf (Legal.close (Legal.raise h.of_rest _))
  | releaseStepTimerExpiry => exact h.nextIf (Legal.close (Legal.raise h.of_rest _))
  | locateTimerExpiry => exact h.nextIf (Legal.close (Legal.raise h.of_rest _))
  | clampTimerExpiry => exact h.nextIf (Legal.close (Legal.raise h.of_rest _))
  | settleMarkSet => exact h.nextIf h.setSettleMark.close
  | profileOrigin => exact h.nextIf h.reachOrigin.close
  | localProfileStart => exact h.nextIf h.startLocal.close
  | periodEnd => exact h.nextIf h.endPeriod.close
  | setpointWordRepeat => exact h.nextIf h.startWord.close
  | setpointWordEnd => exact h.nextIf h.startWord.close
  | machClearDrop => exact h.execMachClearDrop
  | emergencyOn => exact .ite h.next (Legal.next (Legal.close (Legal.raise h.of_rest _)))
  | driveFaultOn => exact .ite h.next (Legal.next (Legal.close (Legal.raise h.of_rest _)))
  | clampPressureOff => exact h.nextIf h.losePressure.close
  | clampPressureMade => exact Legal.next h.of_rest
  | locatorsEngaged a b => exact Legal.next (Legal.ite h.of_rest h.of_rest)
  | locatorOff a b => exact h.nextIf (h.loseLocators a b).close
  | palletPresentChange b => exact Legal.next h.of_rest
  | plateCodeChange c => exact Legal.next h.of_rest
  | liftUpSensorOn => exact h.execLiftUpSensorOn
  | liftDownSensorOn => exact h.execLiftDownSensorOn
  | liftSensorOff up => exact h.execLiftSensorOff up
  | homeSensorChange on => exact h.execHomeSensorChange on
  | encoderEdge d => exact Legal.next h.of_rest
  | machClearOn => exact Legal.next h.of_rest
  | emergencyOff => exact Legal.next h.of_rest
  | driveFaultOff => exact Legal.next h.of_rest
  | homeCapture b => exact Legal.next h.of_rest

/-! The step. -/

theorem Legal.runOn (h : Legal s) : Legal s.runOn := by
  unfold State.runOn
  split
  · exact h.of_rest
  · exact h.of_link rfl rfl rfl rfl rfl (.inl rfl)

theorem Legal.step (h : Legal s) : AnswerLegal (step s) := by
  unfold Machine.step
  split
  · have g : ∀ l : List Instr, Legal { s with pending := l } := fun _ => h.of_rest
    exact (g _).exec _
  · exact h.runOn.next

theorem legal_iff : Legal s ↔ QueueOrdered s ∧ CountBelowLimit s ∧ LevelsLegal s ∧ ReadyWithdrawn s :=
  ⟨fun h => ⟨h.ordered, h.count, h.levels, h.ready⟩, fun ⟨a, b, c, d⟩ => ⟨a, b, c, d⟩⟩

/-- Settles O57: every operation of the model keeps the laws of `Legal`, so every command and every step does. -/
theorem queueAndLevelsKept : Obligations.QueueAndLevelsKept :=
  fun _ t inv e => legal_iff.1 ((legal_iff.2 inv).step t e)

end Sys2Proof.SectionLine
end

section
/-! The values after reset, the transmit queue, and the events of the link (R1 to R15). -/

set_option Elab.async false

namespace Sys2Proof.SectionLine

open Sys2Proof.Machine Sys2Proof.Safety Sys2Proof.Claims

/-! Reset (R12, R34, R35, R66, R102, R117, R136, R146, R160, R161, R178, R180). -/

/-- Settles O3, block by block: each block's reset value is written out in the model; the causes by `reset_cause`. -/
theorem resetLeavesStatedValues : Obligations.ResetLeavesStatedValues := by
  refine ⟨rfl, fun cause => ⟨?_, ?_, ?_, ?_, ?_, ?_, ?_, ?_, ?_, ⟨reset_cause, ?_⟩, ?_, ?_⟩⟩ <;> and_intros <;> rfl

/-- Settles O59: in OFFLINE, with no cause pending and nothing queued, every law holds of the values of reset. -/
theorem resetSatisfiesInvariants : Obligations.ResetSatisfiesInvariants := by
  intro cause s
  have queue : Legal s := legal_resetBy cause
  have quiet : ∀ e ∈ Har.reset.causes, e.pending = false := by decide
  have noneAt : Har.reset.anyPendingAt 7 = false := by decide
  refine ⟨⟨⟨?_, ?_, ?_⟩, fun m => ?_⟩, ⟨?_, fun h => absurd rfl h, ?_, ?_⟩, legal_iff.1 queue,
    ⟨fun _ => ⟨quiet, rfl, rfl⟩, fun h => absurd h (by rw [show s.har = Har.reset from rfl, noneAt]; decide), ?_, ?_⟩⟩
  · exact Nat.le_refl 0
  · exact Nat.zero_le 255
  · rfl
  · exact Nat.zero_le 2
  · exact ⟨nofun, nofun⟩
  · exact List.nodup_nil
  · exact ⟨Nat.zero_le 7, rfl, rfl, rfl⟩
  · rfl
  · exact ⟨rfl, rfl, rfl, rfl⟩

/-! The transmit queue (R9 to R11). -/

/-- Table 1-1: the kinds have different priorities. -/
theorem priority_inj {j k : FrameKind} (h : j.priority = k.priority) : j = k := by
  revert h; cases j <;> cases k <;> decide

/-- R9: a queue in order holds one frame of a kind. -/
theorem eq_of_kind {q : List QueuedFrame} (h : q.Pairwise Before) {f g : QueuedFrame} (hf : f ∈ q) (hg : g ∈ q)
    (e : f.payload.kind = g.payload.kind) : f = g := by
  have apart {a b : QueuedFrame} (l : Before a b) : a.payload.kind ≠ b.payload.kind := fun k => by
    unfold Before at l
    rw [k] at l
    exact Nat.lt_irrefl _ l
  exact List.Pairwise.forall_of_forall_of_flip (R := fun a b : QueuedFrame => a.payload.kind = b.payload.kind → a = b)
    (fun _ _ _ => rfl) (h.imp fun l k => absurd k (apart l)) (h.imp fun l k => absurd k.symm (apart l)) hf hg e

/-- R9: what `insertFrame` leaves of a queue in order. -/
theorem mem_insertFrame_iff {f g : QueuedFrame} {q : List QueuedFrame} (h : q.Pairwise Before) :
    f ∈ insertFrame g q ↔ f = g ∨ (f.payload.kind ≠ g.payload.kind ∧ f ∈ q) := by
  by_cases k : f.payload.kind = g.payload.kind
  · have only := fun i => eq_of_kind (insertFrame_pairwise (f := g) h) i (mem_insertFrame_self g q) k
    exact ⟨fun i => .inl (only i), fun i => by
      rcases i with rfl | ⟨n, -⟩
      · exact mem_insertFrame_self f q
      · exact absurd k n⟩
  · rw [mem_insertFrame_other fun e => k (priority_inj e)]
    exact ⟨fun i => .inr ⟨k, i⟩, fun i => by
      rcases i with rfl | ⟨-, i⟩
      · exact absurd rfl k
      · exact i⟩

/-- Settles O19: `insertFrame` keeps the order, and the queue in order holds the new frame alone of its kind. -/
theorem queueReplacesKind : Obligations.QueueReplacesKind := by
  intro l p h
  refine ⟨insertFrame_pairwise h, fun f n => ?_, fun f e => ?_, rfl⟩
  · exact mem_insertFrame_other fun e => n (priority_inj e)
  · refine (mem_insertFrame_iff h).trans ⟨fun i => i.elim id fun i => absurd e i.1, .inl⟩

/-! Frames start (R1, R3, R10, R100). -/

/-- Settles O20: a station that has seen the link idle, with no frame on it, can start or receive one. -/
theorem frameStarts : Obligations.FrameStarts := by
  intro s
  refine ⟨rfl, fun idle free => ?_⟩
  have can : s.lpt.canStart = true := by simp [Lpt.canStart, idle, free]
  refine ⟨?_, fun f rest e => ?_⟩
  · change execFrameStart false s = _
    simp only [execFrameStart, can, if_true]
    rfl
  · change execFrameStart true s = _
    simp only [execFrameStart, can, e, State.startSending, Lpt.startOwn]
    rfl

/-! Attempts that are not observed (R2, R4 to R6, R10, R11). -/

/-- R10, R11: `giveUp` puts the frame of an attempt back where the rules say so. -/
theorem wentBack_putBack (l : Lpt) (f : QueuedFrame) :
    WentBack l f (if l.withdrawHeld then l.queue else putBack f l.queue) := by
  unfold WentBack putBack
  by_cases w : l.withdrawHeld = true
  · simp [w]
  · by_cases k : ∃ g ∈ l.queue, g.payload.kind = f.payload.kind
    · have a : l.queue.any (fun g => g.payload.kind == f.payload.kind) = true := by simpa using k
      rw [if_pos (.inr k), if_neg w, if_pos a]
    · have a : ¬l.queue.any (fun g => g.payload.kind == f.payload.kind) = true := by simpa using k
      rw [if_neg (by simp only [not_or]; exact ⟨w, k⟩), if_neg w, if_neg a]
      refine fun g => ⟨mem_insertFrame, fun i => ?_⟩
      rcases i with rfl | i
      · exact mem_insertFrame_self g _
      · exact (mem_insertFrame_other fun e => k ⟨g, i, priority_inj e⟩).2 i

/-- R7, R14: the commands that a frame's observation can be. -/
theorem exec_observation (s : State) {f : Frame} {i : Instr} (h : i = observedCommand f ∨ i = .foreignFrameObserved f) :
    exec i s = .next (s.observe f) := by
  rcases h with rfl | rfl
  · obtain ⟨x, p⟩ := f
    cases p <;> rfl
  · rfl

theorem exec_frameMarked {s : State} (h : s.lpt.frame ≠ none) : exec .frameMarked s = .next s.marked := by
  change execFrameMarked s = _
  rw [execFrameMarked, if_pos (Option.isSome_iff_ne_none.2 h)]

/-- R5, R6: a frame marked fewer than 16 times in a row goes back and is the counted one. -/
theorem marked_goesBack {s : State} {f : QueuedFrame} (b : s.lpt.buffer = some f) (n : s.lpt.countAfterMark f < 16) :
    s.marked = { s with lpt := { s.lpt with
      buffer := none, withdrawHeld := false, frame := none
      queue := if s.lpt.withdrawHeld then s.lpt.queue else putBack f s.lpt.queue
      counted := some f.id, count := s.lpt.countAfterMark f } } := by
  have e : s.lpt.mark
      = ({ s.lpt.giveUp with frame := none, counted := some f.id, count := s.lpt.countAfterMark f }, none) := by
    rw [Lpt.mark, b]
    exact if_pos n
  rw [State.marked, e, Lpt.giveUp, b]

/-- R4: a frame in which a station finds a fault that has not lost arbitration to it is marked. -/
theorem observe_fault {s : State} {f : Frame} (part : s.takesPart = true) (stay : s.yieldTo f = s)
    (fault : s.findsFault f = true) : s.observe f = s.marked := by
  unfold State.observe State.sense
  rw [if_pos part, stay, if_pos fault]

/-- R2, R10, R14: the attempt that the station sends is the frame of its own header and payload. -/
theorem isOwnAttempt_iff {s : State} {q : QueuedFrame} {clock : FrameClock} (b : s.lpt.buffer = some q)
    (c : s.lpt.frame = some clock) (g : Frame) :
    s.isOwnAttempt g = true ↔ g = ⟨⟨s.sectionId, s.stationNo, clock.localStart⟩, q.payload⟩ := by
  obtain ⟨⟨sec, sender, stamp⟩, p⟩ := g
  simp only [State.isOwnAttempt, b, c, Bool.and_eq_true, beq_iff_eq, Frame.mk.injEq, Header.mk.injEq]
  exact ⟨fun ⟨⟨⟨e1, e2⟩, e3⟩, e4⟩ => ⟨⟨e3, e2, e4⟩, e1.symm⟩, fun ⟨⟨e3, e2, e4⟩, e1⟩ => ⟨⟨⟨e1.symm, e2⟩, e3⟩, e4⟩⟩

/-- R2: a station loses arbitration to the lower identifier. -/
theorem losesTo_iff {s : State} {q : QueuedFrame} (b : s.lpt.buffer = some q) (clock : FrameClock) (g : Frame) :
    s.losesTo g = true ↔ frameIdentifier g < frameIdentifier ⟨⟨s.sectionId, s.stationNo, clock.localStart⟩, q.payload⟩ := by
  simp only [State.losesTo, b, frameIdentifier]
  exact decide_eq_true_iff

/-- R2, R10: an observation to which an own attempt loses is one to the station that has given the attempt up. -/
theorem observe_loser {s : State} {g : Frame} (p : s.takesPart = true) (h : s.losesTo g = true) :
    s.observe g = State.observe { s with lpt := s.lpt.giveUp } g := by
  have gone : s.lpt.giveUp.buffer = none ∧ s.lpt.giveUp.idleSeen = s.lpt.idleSeen ∧ s.lpt.giveUp.frame = s.lpt.frame := by
    rcases giveUp_cases s.lpt with ⟨b, e⟩ | ⟨f, -, e⟩ <;> rw [e]
    · exact ⟨b, rfl, rfl⟩
    · exact ⟨rfl, rfl, rfl⟩
  have part : State.takesPart { s with lpt := s.lpt.giveUp } = s.takesPart := by
    unfold State.takesPart
    rw [gone.2.1, gone.2.2]
  have yields : s.yieldTo g = { s with lpt := s.lpt.giveUp } := by rw [State.yieldTo, if_pos h]
  unfold State.observe
  rw [part, yields, yieldTo_receiver gone.1, if_pos p, if_pos p]

/-- Settles O21: by `giveUp_cases` and `mark_cases` for the end of an attempt, and by the two tests on an observed frame, which
identifier is the lower and whether it is the attempt itself. -/
theorem unobservedAttemptGoesBack : Obligations.UnobservedAttemptGoesBack := by
  intro s
  refine ⟨fun b => ?_, fun b c => ⟨?_, fun g i idle out hi => ?_⟩, fun f b => ⟨⟨_, wentBack_putBack s.lpt f, ?_⟩,
    fun c n => ⟨_, wentBack_putBack s.lpt f, ?_⟩, fun clock g i idle c hi => ⟨fun lower u e => ?_, fun notLower bad => ?_⟩⟩⟩
  · change Host.Outcome.next _ = _
    rw [Lpt.giveUp, b]
  · rw [exec_frameMarked c]
    simp only [State.marked, Lpt.mark, b]
  · have part : s.takesPart = true := by simp [State.takesPart, idle, Option.isSome_iff_ne_none.2 c]
    rw [exec_observation s hi, exec_frameMarked c,
      observe_fault part (yieldTo_receiver b g) (by simp [State.findsFault, out])]
  · change Host.Outcome.next _ = _
    rw [Lpt.giveUp, b]
  · have below : s.lpt.countAfterMark f < 16 := by
      unfold Lpt.countAfterMark
      split
      · have := n ‹_›; omega
      · decide
    rw [exec_frameMarked c, marked_goesBack b below, Lpt.countAfterMark]
  · have loses := (losesTo_iff b clock g).2 lower
    cases e
    have part : s.takesPart = true := by simp [State.takesPart, idle, c]
    rw [exec_observation s hi, exec_observation _ hi, observe_loser part loses]
  · have part : s.takesPart = true := by simp [State.takesPart, idle, c]
    have keeps : ¬s.losesTo g = true := fun l => Nat.not_lt.2 notLower ((losesTo_iff b clock g).1 l)
    have fault : s.findsFault g = true := by
      rcases bad with out | other
      · simp [State.findsFault, out]
      · have alien : s.isOwnAttempt g = false := Bool.eq_false_iff.2 fun o => other ((isOwnAttempt_iff b c g).1 o)
        simp [State.findsFault, State.readBackFault, b, alien]
    rw [exec_observation s hi, exec_frameMarked (by rw [c]; nofun),
      observe_fault part (by rw [State.yieldTo, if_neg keeps]) fault]

/-! Foreign frames (R12 to R15). -/

/-- R4, R7: a station that sends nothing takes a frame within the ranges. -/
theorem observe_receiver {s : State} {f : Frame} (idle : s.lpt.idleSeen = true) (c : s.lpt.frame ≠ none)
    (b : s.lpt.buffer = none) (good : frameInRange f = true) : s.observe f = s.take f := by
  have part : s.takesPart = true := by simp [State.takesPart, idle, Option.isSome_iff_ne_none.2 c]
  have clean : ¬s.findsFault f = true := by simp [State.findsFault, State.readBackFault, good, b]
  unfold State.observe State.sense
  rw [if_pos part, yieldTo_receiver b, if_neg clean]

theorem isOwnAttempt_receiver {s : State} (b : s.lpt.buffer = none) (f : Frame) : s.isOwnAttempt f = false := by
  simp [State.isOwnAttempt, b]

/-- R148: at the end of a command a self-clearing cause of level 1 or more is pending exactly while its condition is present. -/
theorem close_pending (s : State) (n : EveryCause s) (c : Cause) (k : c ∈ Cause.selfClearing) (l : 1 ≤ s.har.level c) :
    s.close.har.isPending c = s.condition c := by
  have e := refreshCauses_exact s n c k l
  unfold State.close
  generalize s.refreshCauses = u at e
  exact e

/-- Settles O23: `take` by its cases, and FOREIGN_FRAME by its condition at the end of the command. -/
theorem foreignFrameTimed : Obligations.ForeignFrameTimed := by
  intro s
  refine ⟨fun f i off idle c b good hi => ?_, fun on levels => ⟨fun f clock idle c b good alien => ?_, fun running => ?_⟩⟩
  · rw [exec_observation s hi, observe_receiver idle c b good]
    rcases take_cases s f with ⟨-, e⟩ | ⟨o, -⟩ | ⟨o, -⟩
    · rw [e, isOwnAttempt_receiver b]
      rfl
    · simp [State.offline, off] at o
    · simp [State.offline, off] at o
  · have strange : s.foreign f.header false = true := by
      rcases alien with h | h | h <;> simp [State.foreign, h]
    have taken : s.take f = State.takeForeign { s with lpt := s.lpt.observed false } := by
      rcases take_cases s f with ⟨o, -⟩ | ⟨-, -, e⟩ | ⟨-, g, -⟩
      · simp [State.offline, on] at o
      · rw [e, isOwnAttempt_receiver b]
      · rw [isOwnAttempt_receiver b, strange] at g; cases g
    have e : exec (.foreignFrameObserved f) s
        = .next (State.close { s with lpt := { s.lpt with frame := none, foreignTimer := some 1000000 } }) := by
      rw [exec_observation s (.inr rfl), observe_receiver idle (by rw [c]; nofun) b good, taken]
      rfl
    have p := close_pending { s with lpt := { s.lpt with frame := none, foreignTimer := some 1000000 } } levels.1
      .foreignFrame (by decide)
    exact ⟨_, e, close_follows _, fun l => (p l).trans (by simp [State.condition, State.offline, on])⟩
  · have e : exec .foreignFrameTimerExpiry s = .next (State.close { s with lpt := { s.lpt with foreignTimer := none } }) :=
      if_pos (Option.isSome_iff_ne_none.2 running)
    have p := close_pending { s with lpt := { s.lpt with foreignTimer := none } } levels.1 .foreignFrame (by decide)
    exact ⟨_, e, close_follows _, fun l => (p l).trans (by simp [State.condition])⟩

end Sys2Proof.SectionLine
end

section
/-! The encodings (R4, R16 to R19, R173, R177): octets, codes, pallet records, payloads, frames and requests are read back. -/

set_option Elab.async false

namespace Sys2Proof.SectionLine

open Sys2Proof.Machine

/-! Octets and codes. -/

theorem octets_one (n : Nat) : octets 1 n = [BitVec.ofNat 8 n] := rfl

theorem octets_two (n : Nat) : octets 2 n = [BitVec.ofNat 8 (n / 256), BitVec.ofNat 8 n] := rfl

theorem octets_four (n : Nat) : octets 4 n
    = [BitVec.ofNat 8 (n / 256 / 256 / 256), BitVec.ofNat 8 (n / 256 / 256), BitVec.ofNat 8 (n / 256), BitVec.ofNat 8 n] := rfl

theorem toNat_octet {n : Nat} (h : n < 256) : (BitVec.ofNat 8 n).toNat = n := Nat.mod_eq_of_lt h

/-- R17, R177: octets are those of the number that they spell. -/
theorem octets_octetsNat (os : List Byte) : octets os.length (octetsNat os) = os := by
  induction os using List.reverseRecOn with
  | nil => rfl
  | append_singleton l o ih =>
    have lt : o.toNat < 256 := o.isLt
    have high : (256 * octetsNat l + o.toNat) / 256 = octetsNat l := by omega
    have low : BitVec.ofNat 8 (256 * octetsNat l + o.toNat) = o := by
      apply BitVec.eq_of_toNat_eq
      rw [BitVec.toNat_ofNat]
      omega
    rw [List.length_append, List.length_singleton, octets, octetsNat_append, high, low, ih]

/-- R17: a 16-bit value is the two octets of its number, the most significant first. -/
theorem append_octets_two (i : BitVec 16) : BitVec.ofNat 8 (i.toNat / 256) ++ BitVec.ofNat 8 i.toNat = i := by
  apply BitVec.eq_of_toNat_eq
  have lt := i.isLt
  rw [BitVec.toNat_append, BitVec.toNat_ofNat, BitVec.toNat_ofNat, ← Nat.shiftLeft_add_eq_or_of_lt (Nat.mod_lt _ (by decide)),
    Nat.shiftLeft_eq]
  omega

theorem append_octets_four (i : BitVec 32) : BitVec.ofNat 8 (i.toNat / 256 / 256 / 256) ++ BitVec.ofNat 8 (i.toNat / 256 / 256)
    ++ BitVec.ofNat 8 (i.toNat / 256) ++ BitVec.ofNat 8 i.toNat = i := by
  apply BitVec.eq_of_toNat_eq
  have lt := i.isLt
  simp only [BitVec.toNat_append, BitVec.toNat_ofNat]
  rw [← Nat.shiftLeft_add_eq_or_of_lt (Nat.mod_lt _ (by decide)), ← Nat.shiftLeft_add_eq_or_of_lt (Nat.mod_lt _ (by decide)),
    ← Nat.shiftLeft_add_eq_or_of_lt (Nat.mod_lt _ (by decide))]
  simp only [Nat.shiftLeft_eq]
  omega

/-- R17: a signed integer within its octets is read back. -/
theorem octetsInt_signedOctets {k : Nat} {v : Int} (hk : k ≠ 0) (lo : -(2 ^ (8 * k - 1) : Int) ≤ v)
    (hi : v < (2 ^ (8 * k - 1) : Int)) : octetsInt (signedOctets k v) = v := by
  have two : (2 ^ (8 * k) : Int) = 2 * 2 ^ (8 * k - 1) := by
    rw [← pow_succ', show 8 * k - 1 + 1 = 8 * k by omega]
  have cast : ((2 ^ (8 * k - 1) : Nat) : Int) = 2 ^ (8 * k - 1) := by norm_cast
  have pos : (0 : Int) < 2 ^ (8 * k - 1) := by positivity
  have nonneg : 0 ≤ v % (2 ^ (8 * k) : Int) := Int.emod_nonneg _ (by omega)
  have below : v % (2 ^ (8 * k) : Int) < 2 ^ (8 * k) := Int.emod_lt_of_pos _ (by omega)
  have fits : (v % (2 ^ (8 * k) : Int)).toNat < 256 ^ k := by
    have e : ((256 ^ k : Nat) : Int) = 2 ^ (8 * k) := by rw [pow_mul]; norm_cast
    omega
  simp only [octetsInt, signedOctets, octetsNat_octets _ _ fits, octets_length]
  by_cases s : 0 ≤ v
  · have e : v % (2 ^ (8 * k) : Int) = v := Int.emod_eq_of_lt s (by omega)
    rw [e, if_pos (by omega)]
    omega
  · have e : v % (2 ^ (8 * k) : Int) = v + 2 ^ (8 * k) := by
      rw [← Int.add_emod_right, Int.emod_eq_of_lt (by omega) (by omega)]
    rw [e, if_neg (by omega)]
    omega

/-! Table 1-6: the codes are read back, and those of a pallet record are the only ones read so. -/

theorem verdict_code_of_ofCode {n : Nat} {v : Verdict} (h : Verdict.ofCode n = some v) : v.code = n := by
  unfold Verdict.ofCode at h
  split at h <;> cases h <;> rfl

theorem machResult_code_of_ofCode {n : Nat} {r : MachResult} (h : MachResult.ofCode n = some r) : r.code = n := by
  unfold MachResult.ofCode at h
  split at h <;> cases h <;> rfl

theorem toNat_of_boolOfCode {n : Nat} {b : Bool} (h : boolOfCode n = some b) : b.toNat = n := by
  unfold boolOfCode at h
  split at h <;> cases h <;> rfl

theorem toNat_flagOctet (b : Bool) : (flagOctet b).toNat = b.toNat := by cases b <;> rfl

theorem boolOfCode_flagOctet (b : Bool) : boolOfCode (flagOctet b).toNat = some b := by cases b <;> rfl

theorem verdict_octet (v : Verdict) : Verdict.ofCode (BitVec.ofNat 8 v.code).toNat = some v := by cases v <;> rfl

theorem machResult_octet (r : MachResult) : MachResult.ofCode (BitVec.ofNat 8 r.code).toNat = some r := by cases r <;> rfl

theorem fixtureStatus_octet (x : FixtureStatus) : FixtureStatus.ofCode (BitVec.ofNat 8 x.code).toNat = some x := by
  cases x <;> rfl

theorem profileCode_octet (k : ProfileCode) : ProfileCode.ofCode (BitVec.ofNat 8 k.code).toNat = some k := by cases k <;> rfl

theorem stepState_octet (x : StepState) : StepState.ofCode (BitVec.ofNat 8 x.code).toNat = some x := by cases x <;> rfl

/-! The pallet record (R19). -/

theorem serialDigits_serialOctets (l : List Nat) (digits : ∀ d ∈ l, d ≤ 9) (even : l.length % 2 = 0) :
    serialDigits (serialOctets l) = l := by
  induction l using serialOctets.induct with
  | case1 a b rest ih =>
    have ha := digits a (by simp)
    have hb := digits b (by simp)
    simp only [List.length_cons] at even
    simp only [serialOctets, serialDigits, toNat_octet (show 16 * a + b < 256 by omega),
      ih (fun d m => digits d (by simp [m])) (by omega), List.cons.injEq, and_true]
    omega
  | case2 l other =>
    match l, other, even with
    | [], _, _ => rfl
    | a :: b :: rest, other, _ => exact absurd rfl (other a b rest)

theorem serialOctets_serialDigits (os : List Byte) : serialOctets (serialDigits os) = os := by
  induction os with
  | nil => rfl
  | cons o rest ih =>
    have e : BitVec.ofNat 8 (16 * (o.toNat / 16) + o.toNat % 16) = o := by rw [Nat.div_add_mod]; exact BitVec.ofNat_toNat 8 o
    simp only [serialDigits, serialOctets, ih, e]

theorem serialOctets_length (l : List Nat) : (serialOctets l).length = l.length / 2 := by
  induction l using serialOctets.induct with
  | case1 a b rest ih => simp only [serialOctets, List.length_cons, ih]; omega
  | case2 l other =>
    match l, other with
    | [], _ => rfl
    | [_], _ => simp [serialOctets]
    | a :: b :: rest, other => exact absurd rfl (other a b rest)

theorem opsOfOctets_opsOctets (ops : List OpEntry) (h : ∀ e ∈ ops, 1 ≤ e.station ∧ e.station ≤ 63) :
    opsOfOctets (opsOctets ops) = some ops := by
  induction ops with
  | nil => rfl
  | cons e rest ih =>
    have he := h e (by simp)
    simp only [opsOctets, opsOfOctets, machResult_octet, ih fun x m => h x (by simp [m]),
      toNat_octet (show e.station < 256 by omega), if_pos he]

theorem opsOctets_of_opsOfOctets : ∀ {os : List Byte} {ops : List OpEntry}, opsOfOctets os = some ops → opsOctets ops = os
  | [], _, h => by cases h; rfl
  | [_], _, h => by cases h
  | s :: c :: rest, ops, h => by
    rw [opsOfOctets] at h
    split at h
    · rename_i r es hr hes
      split at h
      · cases h
        have e : BitVec.ofNat 8 r.code = c := by rw [machResult_code_of_ofCode hr]; exact BitVec.ofNat_toNat 8 c
        simp only [opsOctets, opsOctets_of_opsOfOctets hes, e, BitVec.ofNat_toNat, BitVec.setWidth_eq]
      · cases h
    · cases h

theorem opsOctets_length (ops : List OpEntry) : (opsOctets ops).length = 2 * ops.length := by
  induction ops with
  | nil => rfl
  | cons e rest ih => simp only [opsOctets, List.length_cons, ih]; omega

/-- R19: a record within its ranges, field by field. -/
theorem recordInRange_iff (r : PalletRecord) : recordInRange r = true ↔
    (1 ≤ r.id ∧ r.id ≤ 1023 ∧ r.variant ≤ 15 ∧ r.serial.length = 12) ∧ (∀ d ∈ r.serial, d ≤ 9) ∧ r.ops.length ≤ 16
      ∧ ∀ e ∈ r.ops, 1 ≤ e.station ∧ e.station ≤ 63 := by
  simp only [recordInRange, Bool.and_eq_true, decide_eq_true_eq, List.all_eq_true, and_assoc]
  exact Iff.rfl

/-- R19, Table 1-7: a pallet record has 12 octets and two for each entry. -/
theorem recordOctets_length {r : PalletRecord} (h : recordInRange r = true) :
    (recordOctets r).length = 12 + 2 * r.ops.length := by
  obtain ⟨⟨-, -, -, serial⟩, -⟩ := (recordInRange_iff r).1 h
  simp only [recordOctets, List.length_append, octets_length, serialOctets_length, opsOctets_length, serial,
    List.length_cons, List.length_nil]

/-- R19: a record is read back from its octets. -/
theorem recordOfOctets_recordOctets {r : PalletRecord} (h : recordInRange r = true) :
    recordOfOctets (recordOctets r) = some r := by
  obtain ⟨⟨-, id, variant, serial⟩, digits, size, stations⟩ := (recordInRange_iff r).1 h
  obtain ⟨s0, s1, s2, s3, s4, s5, e⟩ : ∃ s0 s1 s2 s3 s4 s5, serialOctets r.serial = [s0, s1, s2, s3, s4, s5] := by
    have six : (serialOctets r.serial).length = 6 := by rw [serialOctets_length, serial]
    match serialOctets r.serial, six with
    | [s0, s1, s2, s3, s4, s5], _ => exact ⟨s0, s1, s2, s3, s4, s5, rfl⟩
  have laid : recordOctets r = BitVec.ofNat 8 (r.id / 256) :: BitVec.ofNat 8 r.id :: BitVec.ofNat 8 r.variant
      :: s0 :: s1 :: s2 :: s3 :: s4 :: s5 :: BitVec.ofNat 8 r.verdict.code :: flagOctet r.truncated
      :: BitVec.ofNat 8 r.ops.length :: opsOctets r.ops := by
    rw [recordOctets, e, octets_two]
    rfl
  have number : octetsNat [BitVec.ofNat 8 (r.id / 256), BitVec.ofNat 8 r.id] = r.id :=
    octetsNat_octets 2 r.id (by omega)
  rw [laid]
  simp only [recordOfOctets, verdict_octet, boolOfCode_flagOctet, opsOfOctets_opsOctets _ stations, ← e,
    serialDigits_serialOctets _ digits (by rw [serial]), number, toNat_octet (show r.variant < 256 by omega),
    toNat_octet (show r.ops.length < 256 by omega), h, and_self, if_true]

/-- R19: octets that are read as a record are the octets of that record, which is within its ranges. -/
theorem recordOctets_of_recordOfOctets {os : List Byte} {r : PalletRecord} (h : recordOfOctets os = some r) :
    recordInRange r = true ∧ recordOctets r = os := by
  unfold recordOfOctets at h
  split at h
  · rename_i i1 i0 v s0 s1 s2 s3 s4 s5 vd tr e rest
    split at h
    · rename_i verdict truncated ops hv ht ho
      dsimp only at h
      split at h
      · rename_i good
        cases h
        refine ⟨good.1, ?_⟩
        have flag : flagOctet truncated = tr := BitVec.eq_of_toNat_eq (by rw [toNat_flagOctet, toNat_of_boolOfCode ht])
        have id := octets_octetsNat [i1, i0]
        simp only [List.length_cons, List.length_nil, Nat.zero_add] at id
        simp only [recordOctets, id, serialOctets_serialDigits, verdict_code_of_ofCode hv, flag, good.2,
          opsOctets_of_opsOfOctets ho, BitVec.ofNat_toNat, BitVec.setWidth_eq]
        rfl
      · cases h
    · cases h
  · cases h

/-- R19: the content of a HANDOVER is read back; two octets of 0 are no record. -/
theorem contentOfOctets_contentOctets {c : Option PalletRecord} (h : ∀ r, c = some r → recordInRange r = true) :
    contentOfOctets (contentOctets c) = some c := by
  cases c with
  | none => rfl
  | some r =>
    have n : recordOctets r ≠ octets 2 0 := fun e => by
      have a := recordOctets_length (h r rfl)
      rw [e, octets_length] at a
      omega
    simp only [contentOfOctets, contentOctets, if_neg n, recordOfOctets_recordOctets (h r rfl), Option.map_some]

/-! Payloads (R18, Table 1-5). -/

/-- R18: the fields of a payload within its ranges are read back. -/
theorem payloadFields_payloadOctets {p : Payload} (h : payloadInRange p = true) :
    payloadFields p.kind (payloadOctets p) = some p := by
  have half (n : Nat) (l : n < 65536) : octetsNat [BitVec.ofNat 8 (n / 256), BitVec.ofNat 8 n] = n := octetsNat_octets 2 n l
  have word (n : Nat) (l : n < 4294967296) : octetsNat [BitVec.ofNat 8 (n / 256 / 256 / 256), BitVec.ofNat 8 (n / 256 / 256),
      BitVec.ofNat 8 (n / 256), BitVec.ofNat 8 n] = n := octetsNat_octets 4 n l
  cases p with
  | stop i c l =>
    simp only [payloadInRange, decide_eq_true_eq] at h
    change some (Payload.stop _ _ _) = _
    rw [append_octets_two, toNat_octet (by omega), toNat_octet (by omega)]
  | lifted i =>
    change some (Payload.lifted _) = _
    rw [append_octets_two]
  | lowered i =>
    change some (Payload.lowered _) = _
    rw [append_octets_two]
  | resume i sp =>
    simp only [payloadInRange, decide_eq_true_eq] at h
    change some (Payload.resume _ _) = _
    rw [append_octets_two, word sp (by omega)]
  | ready f =>
    simp only [payloadInRange, Bool.and_eq_true, decide_eq_true_eq] at h
    simp only [Payload.kind, payloadOctets, octets_two, octets_one, List.cons_append, List.nil_append, payloadFields,
      verdict_octet, fixtureStatus_octet, append_octets_two, half f.pallet (by omega),
      toNat_octet (show f.variant < 256 by omega)]
  | hold l c =>
    simp only [payloadInRange, decide_eq_true_eq] at h
    change some (Payload.hold _ _) = _
    rw [toNat_octet (by omega), toNat_octet (by omega)]
  | handover i c =>
    have content := contentOfOctets_contentOctets (c := c) fun r e => by subst e; exact h
    simp only [Payload.kind, payloadOctets, octets_two, List.cons_append, List.nil_append, payloadFields, content,
      append_octets_two, Option.map_some]
  | position f =>
    simp only [payloadInRange, decide_eq_true_eq] at h
    obtain ⟨period, lo, hi, elo, ehi⟩ := h
    have offset : octetsInt (octets 4 (f.offset % (2 ^ (8 * 4) : Int)).toNat) = f.offset :=
      octetsInt_signedOctets (k := 4) (by decide) (by omega) (by omega)
    have error : octetsInt (octets 2 (f.error % (2 ^ (8 * 2) : Int)).toNat) = f.error :=
      octetsInt_signedOctets (k := 2) (by decide) (by omega) (by omega)
    rw [octets_four] at offset
    rw [octets_two] at error
    simp only [Payload.kind, payloadOctets, signedOctets, octets_two, octets_one, octets_four, List.cons_append,
      List.nil_append, payloadFields, profileCode_octet, boolOfCode_flagOctet, append_octets_two, half f.period (by omega),
      offset, error]
  | beat st =>
    simp only [Payload.kind, payloadOctets, octets_one, payloadFields, stepState_octet, Option.map_some]
  | join f =>
    simp only [payloadInRange, decide_eq_true_eq] at h
    simp only [Payload.kind, payloadOctets, octets_two, octets_one, octets_four, List.cons_append, List.nil_append,
      payloadFields, boolOfCode_flagOctet, append_octets_two, word f.pitch (by omega), word f.vmax (by omega),
      half f.accel (by omega), half f.stopDecel (by omega), toNat_octet (show f.members < 256 by omega),
      toNat_octet (show f.level < 256 by omega), toNat_octet (show f.cause < 256 by omega)]

theorem payloadOfOctets_payloadOctets {p : Payload} (h : payloadInRange p = true) :
    payloadOfOctets p.kind (payloadOctets p) = some p := by
  simp only [payloadOfOctets, payloadFields_payloadOctets h, h, if_true]

/-- Table 1-3: the payload length of every frame fits one octet. -/
theorem payloadOctets_length_lt {p : Payload} (h : payloadInRange p = true) : (payloadOctets p).length < 256 := by
  cases p with
  | handover i c =>
    cases c with
    | none => simp [payloadOctets, contentOctets]
    | some r =>
      obtain ⟨-, -, size, -⟩ := (recordInRange_iff r).1 h
      simp only [payloadOctets, contentOctets, List.length_append, octets_length, recordOctets_length h]
      omega
  | _ => simp [payloadOctets, signedOctets]

/-! Frames (R4, R16, R17, Table 1-2). -/

theorem natBits_four (n : Nat) : ∃ b3 b2 b1 b0, natBits 4 n = [b3, b2, b1, b0] := ⟨_, _, _, _, rfl⟩

theorem natBits_six (n : Nat) : ∃ b5 b4 b3 b2 b1 b0, natBits 6 n = [b5, b4, b3, b2, b1, b0] := ⟨_, _, _, _, _, _, rfl⟩

/-- Table 1-2: octets are taken off the link after their sync bits. -/
theorem takeSynced_syncedBits (os : List Byte) (after : List Bool) :
    takeSynced os.length (syncedBits os ++ after) = some (os, after) := by
  induction os with
  | nil => rfl
  | cons o rest ih =>
    obtain ⟨b7, b6, b5, b4, b3, b2, b1, b0, e⟩ : ∃ b7 b6 b5 b4 b3 b2 b1 b0,
        natBits 8 o.toNat = [b7, b6, b5, b4, b3, b2, b1, b0] := ⟨_, _, _, _, _, _, _, _, rfl⟩
    have number := bitsNat_natBits 8 o.toNat o.isLt
    rw [e] at number
    have laid : syncedBits (o :: rest) ++ after
        = true :: b7 :: b6 :: b5 :: b4 :: b3 :: b2 :: b1 :: b0 :: (syncedBits rest ++ after) := by
      simp only [syncedBits, List.flatMap_cons, e, List.cons_append, List.nil_append]
    rw [laid, List.length_cons, takeSynced]
    simp only [ih, number, BitVec.ofNat_toNat, BitVec.setWidth_eq]

theorem syncedBits_append (a b : List Byte) : syncedBits (a ++ b) = syncedBits a ++ syncedBits b := List.flatMap_append

theorem syncedBits_length (os : List Byte) : (syncedBits os).length = 9 * os.length := by
  induction os with
  | nil => rfl
  | cons o rest ih =>
    simp only [syncedBits, List.flatMap_cons, List.length_append, List.length_cons, natBits_length] at ih ⊢
    omega

/-- Table 1-4: the six octets before the payload. -/
def headerOctets (f : Frame) : List Byte :=
  octets 1 f.header.sectionId ++ octets 4 f.header.stamp.toNat ++ octets 1 (payloadOctets f.payload).length

theorem frameOctets_eq (f : Frame) : frameOctets f = headerOctets f ++ payloadOctets f.payload := rfl

/-- R16: a frame of `p` payload octets takes 91 + 9 p bit times. -/
theorem frameBits_length (f : Frame) : (frameBits f).length = 91 + 9 * (payloadOctets f.payload).length := by
  simp only [frameBits, arbitrationBits, frameOctets, List.length_cons, List.length_append, natBits_length,
    syncedBits_length, octets_length, List.length_replicate]
  omega

/-- R4: the bits of a frame within its ranges are received as that frame. -/
theorem receiveFrame_frameBits {f : Frame} (h : frameInRange f = true) : receiveFrame (frameBits f) = some f := by
  have range := h
  simp only [frameInRange, Bool.and_eq_true, decide_eq_true_eq] at range
  obtain ⟨⟨-, section15, -, sender63⟩, good⟩ := range
  obtain ⟨k3, k2, k1, k0, kind⟩ := natBits_four f.payload.kind.priority
  obtain ⟨n5, n4, n3, n2, n1, n0, sender⟩ := natBits_six f.header.sender
  have kindNumber : bitsNat [k3, k2, k1, k0] = f.payload.kind.priority := by
    rw [← kind]; exact bitsNat_natBits 4 _ (by cases f.payload.kind <;> decide)
  have kindOf : FrameKind.ofPriority f.payload.kind.priority = some f.payload.kind := by cases f.payload.kind <;> rfl
  have senderNumber : bitsNat [n5, n4, n3, n2, n1, n0] = f.header.sender := by
    rw [← sender]; exact bitsNat_natBits 6 _ (by omega)
  have bits : arbitrationBits f = [k3, k2, k1, k0, n5, n4, n3, n2, n1, n0] := by rw [arbitrationBits, kind, sender]; rfl
  -- the three parts that are taken off the link
  have header (after : List Bool) : takeSynced 6 (syncedBits (headerOctets f) ++ after) = some (headerOctets f, after) :=
    takeSynced_syncedBits (headerOctets f) after
  have check (after : List Bool) : takeSynced 2 (syncedBits (octets 2 (frameCheck f).toNat) ++ after)
      = some (octets 2 (frameCheck f).toNat, after) := takeSynced_syncedBits (octets 2 (frameCheck f).toNat) after
  have length : octetsNat ((headerOctets f).drop 5) = (payloadOctets f.payload).length :=
    octetsNat_octets 1 _ (payloadOctets_length_lt good)
  have sectionNumber : octetsNat ((headerOctets f).take 1) = f.header.sectionId := octetsNat_octets 1 _ (by omega)
  have stamp : BitVec.ofNat 32 (octetsNat (((headerOctets f).drop 1).take 4)) = f.header.stamp := by
    have e : octetsNat (((headerOctets f).drop 1).take 4) = f.header.stamp.toNat := octetsNat_octets 4 _ f.header.stamp.isLt
    rw [e]
    exact BitVec.ofNat_toNat 32 _
  have laid : frameBits f = false :: k3 :: k2 :: k1 :: k0 :: n5 :: n4 :: n3 :: n2 :: n1 :: n0
      :: (syncedBits (headerOctets f) ++ (syncedBits (payloadOctets f.payload)
        ++ (syncedBits (octets 2 (frameCheck f).toNat) ++ List.replicate 8 true))) := by
    simp only [frameBits, bits, frameOctets_eq, syncedBits_append, List.append_assoc, List.cons_append, List.nil_append]
  have sum : frameCheck f = Machine.check ([k3, k2, k1, k0, n5, n4, n3, n2, n1, n0]
      ++ octetBits (headerOctets f ++ payloadOctets f.payload)) := by rw [frameCheck, bits, frameOctets_eq]
  rw [laid, receiveFrame]
  simp only [kindNumber, kindOf, header, length, takeSynced_syncedBits, payloadOfOctets_payloadOctets good, check,
    sectionNumber, senderNumber, stamp, ← sum]
  exact if_pos ⟨h, trivial, by decide⟩

/-! Requests (R173, R174, R177). -/

theorem halfValue_octets (v : BitVec 16) : halfValue (octets 2 v.toNat) = some v := congrArg some (append_octets_two v)

/-- Table 11-6: the fields of SET_ITEM are read back as their item. -/
theorem decodeItem_itemFields {w : ItemWrite} (h : w.wellFormed = true) : decodeItem (itemFields w) = some w := by
  cases w with
  | members v =>
    simp only [ItemWrite.wellFormed, decide_eq_true_eq] at h
    simp [itemFields, decodeItem, Nat.mod_eq_of_lt (show v.length < 256 by omega)]
  | unknown name value =>
    have outside : 16 < name.toNat := (of_decide_eq_true h).1
    simp only [itemFields, decodeItem]
    split
    case h_18 => rfl
    all_goals omega
  | pitch v =>
    change some (ItemWrite.pitch _) = _
    rw [append_octets_four]
  | stationNumber v => rfl
  | sectionId v => rfl
  | homingSpeed v => rfl
  | settleStage v => rfl
  | causeLevel c l => rfl
  | _ =>
    simp [itemFields, decodeItem, halfValue_octets]

/-- Table 11-5, Table 11-6: the parts of a request are read back as it, and its kind and length fit one octet each. -/
theorem decodeRequest_requestParts {i : Instr} {kind : Nat} {fields : List Byte} (w : i.wellFormed = true)
    (h : requestParts i = some (kind, fields)) :
    decodeRequest kind fields = some i ∧ fields.length < 256 ∧ 0 < kind ∧ kind < 256 := by
  cases i <;> cases h
  case setItem item =>
    refine ⟨by simp [decodeRequest, decodeItem_itemFields w], ?_, by decide, by decide⟩
    cases item <;> simp [Instr.wellFormed, ItemWrite.wellFormed] at w <;> simp [itemFields] <;> omega
  case loadEntry => exact ⟨rfl, by simp [Instr.wellFormed] at w; omega, by decide, by decide⟩
  case loadFixture => exact ⟨rfl, by simp [Instr.wellFormed] at w; omega, by decide, by decide⟩
  all_goals exact ⟨rfl, by simp, by decide, by decide⟩

/-- R173: a request is read back whatever octets follow it. -/
theorem decodeTransaction_encodeRequest {i : Instr} {os : List Byte} (w : i.wellFormed = true) (h : encodeRequest i = some os)
    (rest : List Byte) : decodeTransaction (os ++ rest) = i := by
  unfold encodeRequest at h
  split at h
  · rename_i kind fields parts
    obtain ⟨read, size, pos, kind255⟩ := decodeRequest_requestParts w parts
    cases h
    have nonzero : BitVec.ofNat 8 kind ≠ 0 := fun e => by
      have := congrArg BitVec.toNat e
      rw [toNat_octet kind255] at this
      exact absurd this (by simpa using Nat.ne_of_gt pos)
    have check : (checkOctets (BitVec.ofNat 8 kind :: BitVec.ofNat 8 fields.length :: fields)).length = 2 := octets_length _ _
    simp only [List.cons_append, List.append_assoc, decodeTransaction, if_neg nonzero, toNat_octet size, toNat_octet kind255,
      List.take_left, List.drop_left, read, Option.getD_some]
    rw [List.take_left' check, if_pos rfl]
  · cases h

/-- R174: the octets after a request are those that follow it. -/
theorem trailingOctets_encodeRequest {i : Instr} {os : List Byte} (w : i.wellFormed = true) (h : encodeRequest i = some os)
    (rest : List Byte) : trailingOctets (os ++ rest) = rest.length := by
  unfold trailingOctets
  rw [decodeTransaction_encodeRequest w h rest]
  split
  · cases h
  · simp [h]

/-- Settles O60, from the reading of a request (`decodeTransaction_encodeRequest`) and of a frame (`receiveFrame_frameBits`). -/
theorem encodingsReadBack : Obligations.EncodingsReadBack := by
  refine ⟨fun i os rest w h => ⟨decodeTransaction_encodeRequest w h rest, trailingOctets_encodeRequest w h rest⟩, fun f h =>
    ⟨frameBits_length f, receiveFrame_frameBits h, ?_⟩⟩
  unfold decodeLinkBits
  rw [receiveFrame_frameBits h]

end Sys2Proof.SectionLine
end

section
/-! The loading requests (R128 to R130): their tests and the seat command (Table 6-3, R109, R110, R115). -/

set_option Elab.async false

namespace Sys2Proof.SectionLine

open Sys2Proof.Machine Sys2Proof.Safety Sys2Proof.Claims

/-- R162. -/
theorem timeout_eq (ms : Nat) : Config.timeout ms = Timeout ms := by
  unfold Config.timeout Timeout
  omega

/-! The seat command. -/

/-- Table 6-3: the seat command. -/
theorem commandSeat_eq (s : State) : s.fxs.commandSeat s.inputs (Config.timeout s.items.locateTimeout)
    (Config.timeout s.items.clampTimeout) = Seats s := by
  have both : s.inputs.bothOn = true ↔ s.inputs.locator1 = true ∧ s.inputs.locator2 = true := Bool.and_eq_true_iff
  unfold Fxs.commandSeat Seats
  cases e : s.fxs.state <;> simp only [timeout_eq, Fxs.beginLocating, both, e] <;> rfl

/-- Table 6-3: the seat command makes no fixture SECURED. -/
theorem seats_secured (s : State) : (Seats s).state = .secured ↔ s.fxs.state = .secured := by
  unfold Seats
  split
  case h_1 | h_2 => split <;> simp_all
  all_goals simp_all

/-- R60, R115: the seat command to a HELD or UNKNOWN fixture in the last wait of SEATING; the wait ends with a fixture that is SECURED
already. -/
theorem seatFixture_seating {s : State} (state : s.ixs.state = .seating) (step : s.ixs.step = .seat)
    (status : s.rst.status ≠ .empty) : s.seatFixture = { s with
      fxs := Seats s
      ixs := if s.fxs.state = .secured then { s.ixs with state := .working, step := .none, lowerExpired := none } else s.ixs } := by
  have settled : ({ s with fxs := Seats s } : State).fixtureSettled = true ↔ s.fxs.state = .secured := by
    simp [State.fixtureSettled, status, seats_secured]
  unfold State.seatFixture
  rw [commandSeat_eq]
  unfold State.fixtureReported
  simp only [state, step]
  by_cases secured : s.fxs.state = .secured
  · rw [if_pos (settled.2 secured), if_pos secured]
    rfl
  · rw [if_neg fun e => secured (settled.1 e), if_neg secured]

/-- R60, R129, R130: the station that is given a record. -/
theorem takeRecord_eq (s : State) (r : PalletRecord) : s.takeRecord r = (Given s r).close := by
  unfold State.takeRecord
  rw [seatFixture_seating rfl rfl (by simp)]
  congr 1
  unfold Given
  by_cases secured : s.fxs.state = .secured <;> simp [secured] <;> rfl

/-! The tests. -/

/-- R128: the octets that spell a record that may be loaded. -/
theorem loadableRecord_iff (os : List Byte) (r : PalletRecord) : loadableRecord os = some r ↔ Loadable r ∧ recordOctets r = os := by
  have good (x : PalletRecord) : x.ops.all (fun e => decide ((resultVerdict e.result).code ≤ x.verdict.code)) = true
      ↔ ∀ e ∈ x.ops, (resultVerdict e.result).code ≤ x.verdict.code := by simp
  constructor
  · intro h
    unfold loadableRecord at h
    split at h
    · rename_i x read
      obtain ⟨range, laid⟩ := recordOctets_of_recordOfOctets read
      split at h
      · rename_i all
        cases h
        exact ⟨⟨range, (good _).1 all⟩, laid⟩
      · cases h
    · cases h
  · rintro ⟨⟨range, all⟩, rfl⟩
    unfold loadableRecord
    rw [recordOfOctets_recordOctets range]
    exact if_pos ((good r).2 all)

theorem loadableRecord_none {os : List Byte} (h : ¬∃ r, Loadable r ∧ recordOctets r = os) : loadableRecord os = none := by
  cases e : loadableRecord os with
  | none => rfl
  | some r => exact absurd ⟨r, (loadableRecord_iff os r).1 e⟩ h

/-- R129: neither the station's own READY mark nor a READY held stands out. -/
theorem readyOutstanding_iff (s : State) : s.readyOutstanding = false ↔
    (∀ p, s.peers[s.ownIdx]? = some p → p.ready = false) ∧ s.lpt.holds (ofKind .ready) = false := by
  unfold State.readyOutstanding
  cases s.peers[s.ownIdx]? <;> simp

/-- R129: the state in which LOAD_ENTRY is taken. -/
def EntryState (s : State) : Prop :=
  s.isLoad = true ∧ s.ixs.state = .working ∧ s.rst.status = .empty ∧ s.inputs.palletPresent = true
    ∧ (∀ p, s.peers[s.ownIdx]? = some p → p.ready = false) ∧ s.lpt.holds (ofKind .ready) = false

/-- R130: the state in which LOAD_FIXTURE is taken. -/
def FixtureLoadState (s : State) : Prop :=
  s.ixs.state = .working ∧ s.rst.status = .unknown ∧ s.inputs.palletPresent = true

theorem entryState_iff (s : State) : EntryState s ↔ (!s.isLoad || s.ixs.state != .working || s.rst.status != .empty
    || !s.inputs.palletPresent || s.readyOutstanding) = false := by
  simp only [EntryState, ← readyOutstanding_iff, Bool.or_eq_false_iff, Bool.not_eq_false', bne_eq_false_iff_eq, and_assoc]

theorem fixtureLoadState_iff (s : State) : FixtureLoadState s ↔ (s.ixs.state != .working || s.rst.status != .unknown
    || !s.inputs.palletPresent) = false := by
  simp only [FixtureLoadState, Bool.or_eq_false_iff, Bool.not_eq_false', bne_eq_false_iff_eq, and_assoc]

/-- R128 to R130: what a loading request answers once its record is read: the state's test, the plate's, and the record taken. -/
def LoadAnswer (s : State) (r : PalletRecord) (n : Nat) (kind : Byte) (test : Prop) (a : Answer) : Prop :=
  (¬test → a = .next (Refused s n kind .refusedState))
    ∧ (test → s.inputs.plate.toNat ≠ r.id → a = .next (Refused s n kind .refusedIdentity))
    ∧ (test → s.inputs.plate.toNat = r.id → ∃ t, a = .next (Responded t n kind .done []) ∧ Follows [] (Given s r) t)

theorem loadAnswer_of {s : State} {r : PalletRecord} {n : Nat} {kind : Byte} {test : Prop} {fails : Bool} (h : test ↔ fails = false) :
    LoadAnswer s r n kind test (if fails then .next (s.refuse n kind .refusedState)
      else if s.inputs.plate.toNat ≠ r.id then .next (s.refuse n kind .refusedIdentity)
      else .next ((s.takeRecord r).respond n kind .done [])) := by
  refine ⟨fun no => ?_, fun yes plate => ?_, fun yes plate => ⟨(Given s r).close, ?_, close_follows _⟩⟩
  · rw [if_pos (by simpa using mt h.2 no)]; rfl
  · rw [h.1 yes, if_pos plate]; rfl
  · rw [h.1 yes, if_neg (not_not_intro plate), takeRecord_eq]; rfl

theorem loadEntry_answer (s : State) {r : PalletRecord} (h : Loadable r) : LoadAnswer s r (4 + (recordOctets r).length) 8
    (EntryState s) (exec (.loadEntry (recordOctets r)) s) := by
  change LoadAnswer s r _ 8 _ (execLoadEntry (recordOctets r) s)
  unfold execLoadEntry
  rw [(loadableRecord_iff _ r).2 ⟨h, rfl⟩]
  exact loadAnswer_of (entryState_iff s)

theorem loadFixture_answer (s : State) {r : PalletRecord} (h : Loadable r) : LoadAnswer s r (4 + (recordOctets r).length) 9
    (FixtureLoadState s) (exec (.loadFixture (recordOctets r)) s) := by
  change LoadAnswer s r _ 9 _ (execLoadFixture (recordOctets r) s)
  unfold execLoadFixture
  rw [(loadableRecord_iff _ r).2 ⟨h, rfl⟩]
  exact loadAnswer_of (fixtureLoadState_iff s)

/-- R128: octets that are no record to be loaded are refused before the station's state is tested. -/
theorem load_unreadable (s : State) {os : List Byte} (h : ¬∃ r, Loadable r ∧ recordOctets r = os) :
    exec (.loadEntry os) s = .next (Refused s (4 + os.length) 8 .refusedValue)
      ∧ exec (.loadFixture os) s = .next (Refused s (4 + os.length) 9 .refusedValue) := by
  have unread := loadableRecord_none h
  change execLoadEntry os s = _ ∧ execLoadFixture os s = _
  unfold execLoadEntry execLoadFixture
  rw [unread]
  exact ⟨rfl, rfl⟩

/-- Settles O15: the two requests differ in their state's test only (`loadEntry_answer`, `loadFixture_answer`). -/
theorem loadDecided : Obligations.LoadDecided := by
  refine fun s => ⟨fun os h => load_unreadable s h, fun r h => ?_⟩
  obtain ⟨entryState, entryPlate, entryTaken⟩ := loadEntry_answer s h
  obtain ⟨fixtureState, fixturePlate, fixtureTaken⟩ := loadFixture_answer s h
  exact ⟨entryState, fixtureState, entryPlate, fixturePlate, entryTaken, fixtureTaken⟩

end Sys2Proof.SectionLine
end

section
/-! The restart of a HALTED shuttle with the end of the last cause of level 7 (R95, R148, R151, Table 5-4). -/

set_option Elab.async false

namespace Sys2Proof.SectionLine

open Sys2Proof.Machine Sys2Proof.Safety Sys2Proof.Claims

/-! Table 5-4. -/

/-- R95, Table 5-4: the restart of a shuttle that is HALTED. -/
theorem restarts_of_restarted {u t : State} (halted : u.ssv.shuttle = .halted) (h : Restarted u t) : Restarts u t := by
  unfold Restarted at h
  dsimp only at h
  rw [if_neg (not_not_intro halted)] at h
  have up {a b : Int} : decide (a < b) = true ↔ a < b := decide_eq_true_iff
  cases e : u.ssv.haltedFrom with
  | none => simp [Restarts, e]
  | some st =>
    rw [e] at h
    cases st <;> simp only at h
    case atHome | atEnd =>
      obtain ⟨v, p⟩ := h
      simp [Restarts, e, v, p, Pgn.prepareMove, Pgn.fill, up]
    case returning =>
      by_cases x : 0 < u.ssv.encoder.toInt
      · rw [if_pos x] at h
        obtain ⟨v, p⟩ := h
        simp [Restarts, e, v, p, Pgn.prepareMove, Pgn.fill, up, x]
      · rw [if_neg x] at h
        obtain ⟨v, p⟩ := h
        simp [Restarts, e, v, p, Pgn.prepareMove, Pgn.fill, up, x]
    case repositioning =>
      by_cases x : u.ssv.repositionUse = some .toPitch
      · rw [if_pos x] at h
        obtain ⟨v, p⟩ := h
        simp [Restarts, e, v, p, Pgn.prepareMove, Pgn.fill, up, x]
      · rw [if_neg x] at h
        obtain ⟨v, p⟩ := h
        simp [Restarts, e, v, p, x]
    all_goals
      obtain ⟨v, p⟩ := h
      simp [Restarts, e, v, p]

/-- Table 5-4 looks at the drive, the profile and the section's pitch alone. -/
theorem restarts_congr {s u t : State} (ssv : u.ssv = s.ssv) (pgn : u.pgn = s.pgn) (items : u.items = s.items)
    (h : Restarts u t) : Restarts s t := by
  unfold Restarts State.pitch at h ⊢
  rwa [ssv, pgn, items] at h

/-- R95: the drive restarts where the last cause of level 7 ends and none begins. -/
theorem restarts_of_last {exc : List Cause} {u t : State} {c : Cause} (f : Follows exc u t) (n : EveryCause u) (m : EveryCause t)
    (halted : u.ssv.shuttle = .halted) (seven : u.har.level c = 7) (was : u.har.isPending c = true)
    (ended : t.har.isPending c = false) (others : ∀ d, d ≠ c → u.har.level d = 7 → t.har.isPending d = false) : Restarts u t := by
  have quiet (d : Cause) (l : u.har.level d = 7) : t.har.isPending d = false := by
    by_cases e : d = c
    · rw [e]; exact ended
    · exact others d e l
  have before : u.har.anyPendingAt 7 = true := (anyPendingAt_iff n 7).2 ⟨c, seven, was⟩
  have after : t.har.anyPendingAt 7 = false := Bool.eq_false_iff.2 fun p => by
    obtain ⟨d, l, q⟩ := (anyPendingAt_iff m 7).1 p
    rw [quiet d ((f.levels d).symm.trans l)] at q
    cases q
  have none : NoneHalts u t := fun d l p => by rw [quiet d l] at p; cases p
  exact restarts_of_restarted halted ((f.restart n none).2 before after)

/-! The end of the condition of a self-clearing cause. -/

/-- Every cause that is not latched clears itself. -/
theorem latched_or_selfClearing (c : Cause) : c.latched = true ∨ c ∈ Cause.selfClearing := by cases c <;> decide

/-- R148: while no other cause of level 7 is pending, a self-clearing one of level 7 has no condition. -/
theorem condition_of_notPending {s : State} (settled : CausesSettled s) {d : Cause} (k : d ∈ Cause.selfClearing)
    (l : s.har.level d = 7) (p : s.har.isPending d = false) : s.condition d = false := by
  have e := settled d k
  rw [p, l] at e
  simpa using e.symm

/-- R148: the condition of a cause that is pending. -/
theorem condition_of_pending {s : State} (settled : CausesSettled s) {c : Cause} (k : c ∈ Cause.selfClearing)
    (p : s.har.isPending c = true) : s.condition c = true := by
  have e := settled c k
  rw [p] at e
  exact (Bool.and_eq_true_iff.1 e.symm).1

/-- What a change does that ends the condition of `c` and begins that of no other self-clearing cause; the causes, the drive, the profile
and the pitch are as they were. -/
structure EndsOnly (c : Cause) (s u : State) : Prop where
  har : u.har = s.har
  ssv : u.ssv = s.ssv
  pgn : u.pgn = s.pgn
  items : u.items = s.items
  ends : u.condition c = false
  others : ∀ d ∈ Cause.selfClearing, d ≠ c → u.condition d = true → s.condition d = true

/-- R95, R148: the end of the condition of the last pending cause of level 7 restarts the drive. -/
theorem close_restarts {s u : State} {c : Cause} (last : LastOfSeven s c) (k : c ∈ Cause.selfClearing) (e : EndsOnly c s u) :
    u.close.har.isPending c = false ∧ Restarts s u.close := by
  obtain ⟨-, settled, n, was, seven, only, halted⟩ := last
  have nu : EveryCause u := by unfold EveryCause; rw [e.har]; exact n
  have level (d : Cause) : u.har.level d = s.har.level d := by rw [e.har]
  have ended : u.close.har.isPending c = false := by
    rw [close_pending u nu c k (by rw [level, seven]; decide), e.ends]
  have notPending (d : Cause) (ne : d ≠ c) (l : s.har.level d = 7) : s.har.isPending d = false :=
    Bool.eq_false_iff.2 fun p => only d ne p l
  refine ⟨ended, restarts_congr e.ssv e.pgn e.items (restarts_of_last (close_follows u) nu
    ((close_same u).length.trans nu) (by rw [e.ssv]; exact halted) (by rw [level, seven]) (by rw [e.har]; exact was) ended
    fun d ne l => ?_)⟩
  rw [level] at l
  rcases latched_or_selfClearing d with lat | self
  · rw [(close_follows u).latched d lat (by simp), e.har]
    exact notPending d ne l
  · rw [close_pending u nu d self (by rw [level, l]; decide)]
    refine Bool.eq_false_iff.2 fun p => ?_
    have q := e.others d self ne p
    rw [condition_of_notPending settled self l (notPending d ne l)] at q
    cases q

/-! The members' records. -/

theorem updateAt_updateAt {α : Type} (f g : α → α) (i : Nat) (l : List α) :
    updateAt g i (updateAt f i l) = updateAt (fun x => g (f x)) i l := by
  induction l generalizing i with
  | nil => cases i <;> rfl
  | cons a l ih => cases i <;> simp [updateAt, ih]

/-- An element of a list changed at one place is the changed one, or one of another place. -/
theorem mem_updateAt {α : Type} {f : α → α} {i : Nat} {l : List α} {x : α} (h : x ∈ updateAt f i l) :
    ∃ (j : Nat) (p : α), l[j]? = some p ∧ ((j = i ∧ x = f p) ∨ (j ≠ i ∧ x = p)) := by
  obtain ⟨j, e⟩ := List.mem_iff_getElem?.1 h
  by_cases k : j = i
  · rw [k, updateAt_self, Option.map_eq_some_iff] at e
    obtain ⟨p, hp, rfl⟩ := e
    exact ⟨i, p, hp, .inl ⟨rfl, rfl⟩⟩
  · rw [updateAt_other f k] at e
    exact ⟨j, x, e, .inr ⟨k, rfl⟩⟩

theorem silent_heard (p : Peer) (h : p.silence = some 0) : p.silent = false := by
  unfold Peer.silent
  rw [h]
  rfl

theorem silent_false {p : Peer} (h : ∀ us, p.silence = some us → us < 150000) : p.silent = false := by
  unfold Peer.silent
  cases e : p.silence with
  | none => rfl
  | some us => exact decide_eq_false (Nat.not_le.2 (h us e))

/-- R32: after a member has been heard, no more members are silent. -/
theorem silent_after_heard {f : Peer → Peer} (heard : ∀ p, (f p).silence = some 0) {m : Nat} {l : List Peer}
    (h : (updateAt f m l).any Peer.silent = true) : ∃ (j : Nat) (p : Peer), j ≠ m ∧ l[j]? = some p ∧ p.silent = true := by
  obtain ⟨x, i, s⟩ := List.any_eq_true.1 h
  obtain ⟨j, p, e, ⟨-, rfl⟩ | ⟨k, rfl⟩⟩ := mem_updateAt i
  · rw [silent_heard _ (heard p)] at s; cases s
  · exact ⟨j, x, k, e, s⟩

/-- R169: after a JOIN that gives the flag `yes`, and after a frame that leaves the flag, no more members do not match. -/
theorem unmatched_after {f : Peer → Peer} {m : Nat} {l : List Peer} (h : (updateAt f m l).any (fun p => p.matched == .no) = true) :
    ∃ (j : Nat) (p : Peer), l[j]? = some p ∧ ((j = m ∧ (f p).matched = .no) ∨ (j ≠ m ∧ p.matched = .no)) := by
  obtain ⟨x, i, s⟩ := List.any_eq_true.1 h
  rw [beq_iff_eq] at s
  obtain ⟨j, p, e, ⟨k, rfl⟩ | ⟨k, rfl⟩⟩ := mem_updateAt i
  · exact ⟨j, p, e, .inl ⟨k, s⟩⟩
  · exact ⟨j, x, e, .inr ⟨k, s⟩⟩

/-! The six commands. -/

/-- R15: the foreign-frame timer expires. -/
theorem foreignFrameTimerExpiry_ends (s : State) : EndsOnly .foreignFrame s { s with lpt := { s.lpt with foreignTimer := none } } := by
  refine ⟨rfl, rfl, rfl, rfl, by simp [State.condition], fun d k ne p => ?_⟩
  simp only [Cause.selfClearing, List.mem_cons, List.not_mem_nil, or_false] at k
  rcases k with rfl | rfl | rfl | rfl | rfl | rfl
  · exact absurd rfl ne
  all_goals exact p

/-- R133: a record leaves the full exit queue. -/
theorem takeExitRecord_ends {s : State} {r : PalletRecord} {rest : List PalletRecord} (q : s.rst.exitQueue = r :: rest)
    (full : s.rst.exitQueue.length = 4) : EndsOnly .exitQueueFull s { s with rst := { s.rst with exitQueue := rest } } := by
  have short : rest.length = 3 := by rw [q] at full; simpa using full
  refine ⟨rfl, rfl, rfl, rfl, by simp [State.condition, short, Config.exitCapacity], fun d k ne p => ?_⟩
  simp only [Cause.selfClearing, List.mem_cons, List.not_mem_nil, or_false] at k
  rcases k with rfl | rfl | rfl | rfl | rfl | rfl
  case inr.inl => exact absurd rfl ne
  all_goals exact p

/-- R60, R131: what the sequencer does with the fixture opened in the states in which it may be declared EMPTY. -/
theorem fixtureReported_declaring {s : State} (h : s.ixs.state = .forming ∨ s.ixs.state = .working ∨ s.ixs.state = .seating) :
    s.fixtureReported = s ∨ s.fixtureReported = s.enterWorking := by
  unfold State.fixtureReported
  rcases h with h | h | h <;> rw [h]
  · exact .inl rfl
  · exact .inl rfl
  · cases s.ixs.step
    case seat => exact (em (s.fixtureSettled = true)).elim (fun y => .inr (if_pos y)) fun n => .inl (if_neg n)
    all_goals exact .inl rfl

/-- R120, R148: with the status EMPTY, and the link, the line time and the members' records as they were, the fixture is not unknown and no
other condition begins. -/
theorem empty_ends {s u : State} (on : s.offline = false) (har : u.har = s.har) (ssv : u.ssv = s.ssv) (pgn : u.pgn = s.pgn)
    (items : u.items = s.items) (lpt : u.lpt = s.lpt) (ltu : u.ltu = s.ltu) (peers : u.peers = s.peers)
    (status : u.rst.status = .empty) : EndsOnly .fixtureUnknown s u := by
  refine ⟨har, ssv, pgn, items, by simp [State.condition, status], fun d k ne p => ?_⟩
  simp only [Cause.selfClearing, List.mem_cons, List.not_mem_nil, or_false] at k
  rcases k with rfl | rfl | rfl | rfl | rfl | rfl
  case inr.inr.inl => exact absurd rfl ne
  all_goals
    simp only [State.condition, on, lpt, ltu, peers, status, Bool.and_eq_true] at p ⊢
    simp_all

/-- R131: an unknown fixture is declared EMPTY. -/
theorem declareEmpty_ends {s : State} (h : s.ixs.state = .forming ∨ s.ixs.state = .working ∨ s.ixs.state = .seating) :
    EndsOnly .fixtureUnknown s (s.setFixture .empty none).keepOpen := by
  have on : s.offline = false := by rcases h with h | h | h <;> simp [State.offline, h]
  let v : State := { s.setFixture .empty none with
    fxs := s.fxs.commandOpen s.inputs (Config.timeout s.items.releaseStepTimeout) }
  change EndsOnly .fixtureUnknown s v.fixtureReported
  rcases fixtureReported_declaring (s := v) h with e | e <;> rw [e] <;> exact empty_ends on rfl rfl rfl rfl rfl rfl rfl rfl

/-- R28, R29: a beat instant that finds every sample in the fine window, with runs long enough, finds the station in step. -/
theorem runsAfter_fine {coarse fine : Nat} {l : List Sample} (sampled : l ≠ []) (hc : 15 ≤ coarse) (hf : 31 ≤ fine)
    (window : ∀ x ∈ l, -25 ≤ x.offset ∧ x.offset ≤ 25) :
    stepOfRuns (runsAfter coarse fine l).1 (runsAfter coarse fine l).2 = .fine := by
  have within : l.all (withinWindow Config.fineWindow) = true :=
    List.all_eq_true.2 fun x i => decide_eq_true (window x i)
  have runs : runsAfter coarse fine l = (increaseRun coarse, increaseRun fine) := by
    unfold runsAfter
    rw [if_neg (by simpa using sampled), if_pos within]
  rw [runs]
  unfold stepOfRuns increaseRun Config.coarseRunNeeded Config.fineRunNeeded Config.runLimit
  rw [if_pos (by omega), if_pos (by omega)]

/-- R22, R29: the beat instant of a station that it finds in step. -/
theorem beat_inStep {s : State} (b : LineTime) (sampled : s.ltu.samples ≠ []) (hc : 15 ≤ s.ltu.coarseRun) (hf : 31 ≤ s.ltu.fineRun)
    (window : ∀ x ∈ s.ltu.samples, -25 ≤ x.offset ∧ x.offset ≤ 25) :
    s.beat b = s.takeBeat b ∧ (s.takeBeat b).ltu.step = .fine := by
  have fine : (s.takeBeat b).ltu.step = .fine := runsAfter_fine sampled hc hf window
  refine ⟨?_, fine⟩
  unfold State.beat
  dsimp only
  rw [fine, if_neg fun x => by simp [fallsToNone] at x]

/-- R28, R29: a beat instant finds the station in step. -/
theorem takeBeat_ends {s : State} {b : LineTime} (fine : (s.takeBeat b).ltu.step = .fine) :
    EndsOnly .notInStep { s with pgn := { s.pgn with stepFrom := some (s.pgn.stepFrom.getD s.ltu.lineTime) } } (s.takeBeat b) := by
  refine ⟨rfl, rfl, rfl, rfl, by simp [State.condition, fine], fun d k ne p => ?_⟩
  simp only [Cause.selfClearing, List.mem_cons, List.not_mem_nil, or_false] at k
  rcases k with rfl | rfl | rfl | rfl | rfl | rfl
  case inr.inr.inr.inl => exact absurd rfl ne
  all_goals exact p

/-- R32, R45, R154: HOLD of the only silent member. -/
theorem deliverHold_ends {s : State} {m lv k : Nat} {clock : FrameClock}
    (others : ∀ (j : Nat) (p : Peer), j ≠ m → s.peers[j]? = some p → ∀ us, p.silence = some us → us < 150000) :
    EndsOnly .peerSilent s ((Arrived s m false).deliverHold ⟨m, false, clock⟩ lv k) := by
  let f : Peer → Peer := fun p => { p with
    lastHeard := some s.ltu.lineTime, silence := some 0, level := lv, cause := k, ready := p.ready && decide (lv < 4) }
  have peers : ((Arrived s m false).deliverHold ⟨m, false, clock⟩ lv k).peers = updateAt f m s.peers :=
    updateAt_updateAt _ _ m s.peers
  refine ⟨rfl, rfl, rfl, rfl, ?_, fun d i ne p => ?_⟩
  · refine Bool.eq_false_iff.2 fun c => ?_
    simp only [State.condition, peers, Bool.and_eq_true] at c
    obtain ⟨j, p, ne, e, silent⟩ := silent_after_heard (f := f) (fun _ => rfl) c.2
    rw [silent_false (others j p ne e)] at silent
    cases silent
  · simp only [Cause.selfClearing, List.mem_cons, List.not_mem_nil, or_false] at i
    rcases i with rfl | rfl | rfl | rfl | rfl | rfl
    case inr.inr.inr.inr.inr => exact absurd rfl ne
    case inr.inr.inr.inr.inl =>
      simp only [State.condition, peers, Bool.and_eq_true] at p ⊢
      obtain ⟨j, q, e, unmatched⟩ := unmatched_after p.2
      refine ⟨p.1, List.any_eq_true.2 ⟨q, List.mem_of_getElem? e, beq_iff_eq.2 ?_⟩⟩
      exact unmatched.elim And.right And.right
    all_goals exact p

/-- R168, R170: a station takes the index number of a JOIN that is not forming, or not; the members' silence and match flags stay. -/
theorem adoptIndex_keeps (s : State) (i : IndexNo) : ∃ (ready : Peer → Bool) (n : IndexNo), s.adoptIndex i
    = { s with peers := s.peers.map (fun p => { p with ready := ready p }), ixs := { s.ixs with index := n } } := by
  have same : s.peers.map (fun p => { p with ready := p.ready }) = s.peers := List.map_id s.peers
  unfold State.adoptIndex
  split
  · dsimp only
    split
    · exact ⟨Peer.ready, i, by rw [same]⟩
    · exact ⟨fun _ => false, i, rfl⟩
  · exact ⟨Peer.ready, s.ixs.index, by rw [same]⟩

/-- R169, R170: JOIN, not forming, of the only member that did not match, and matches now. -/
theorem deliverJoin_ends {s : State} {m : Nat} {clock : FrameClock} {f : JoinFields} (forming : f.forming = false)
    (good : f.pitch = s.pitch ∧ f.vmax = s.items.vmax ∧ f.accel = s.items.accel ∧ f.stopDecel = s.items.stopDecel
      ∧ f.members = s.memberCount)
    (others : ∀ (j : Nat) (p : Peer), j ≠ m → s.peers[j]? = some p → p.matched ≠ .no) :
    EndsOnly .profileMismatch s ((Arrived s m false).deliverJoin ⟨m, false, clock⟩ f) := by
  let w := (Arrived s m false).writeJoin m f
  have agrees : (Arrived s m false).joinMatches f = true := by
    obtain ⟨pitch, vmax, accel, decel, members⟩ := good
    simp only [State.joinMatches, Bool.and_eq_true, beq_iff_eq]
    exact ⟨⟨⟨⟨pitch, vmax⟩, accel⟩, decel⟩, members⟩
  obtain ⟨ready, n, adopt⟩ := adoptIndex_keeps w f.index
  have e : (Arrived s m false).deliverJoin ⟨m, false, clock⟩ f = w.adoptIndex f.index := by
    unfold State.deliverJoin
    dsimp only
    rw [forming]
    rfl
  let g : Peer → Peer := fun p => { p with
    lastHeard := some s.ltu.lineTime, silence := some 0
    join := some ⟨f.pitch, f.vmax, f.accel, f.stopDecel, f.members, f.index, f.forming⟩, matched := .yes
    level := f.level, cause := f.cause }
  have peers : w.peers = updateAt g m s.peers := by
    change (State.writeJoin _ m f).peers = _
    unfold State.writeJoin
    rw [agrees]
    exact updateAt_updateAt _ _ m s.peers
  have flags {q : Peer → Bool} (keep : ∀ (p : Peer) (b : Bool), q { p with ready := b } = q p) :
      (w.peers.map fun p => { p with ready := ready p }).any q = (updateAt g m s.peers).any q := by
    rw [peers, List.any_map]
    exact congrArg _ (funext fun p => keep p (ready p))
  rw [e, adopt]
  refine ⟨rfl, rfl, rfl, rfl, ?_, fun d i ne p => ?_⟩
  · refine Bool.eq_false_iff.2 fun c => ?_
    simp only [State.condition, Bool.and_eq_true, flags (q := fun p => p.matched == .no) fun _ _ => rfl] at c
    obtain ⟨j, p, e, ⟨-, no⟩ | ⟨ne, no⟩⟩ := unmatched_after c.2
    · cases no
    · exact others j p ne e no
  · simp only [Cause.selfClearing, List.mem_cons, List.not_mem_nil, or_false] at i
    rcases i with rfl | rfl | rfl | rfl | rfl | rfl
    case inr.inr.inr.inr.inl => exact absurd rfl ne
    case inr.inr.inr.inr.inr =>
      simp only [State.condition, Bool.and_eq_true, flags (q := Peer.silent) fun _ _ => rfl] at p ⊢
      obtain ⟨j, q, -, e, silent⟩ := silent_after_heard (f := g) (fun _ => rfl) p.2
      exact ⟨p.1, List.any_eq_true.2 ⟨q, List.mem_of_getElem? e, silent⟩⟩
    all_goals exact p

/-! The commands. -/

/-- R32. -/
theorem silent_iff (p : Peer) : p.silent = true ↔ ∃ us, p.silence = some us ∧ 150000 ≤ us := by
  unfold Peer.silent
  cases p.silence with
  | none => simp
  | some us =>
    simp only [Option.some.injEq, exists_eq_left']
    exact decide_eq_true_iff

/-- R151: the conditions of the machine are those of Table 9-1. -/
theorem condition_iff (s : State) (c : Cause) : s.condition c = true ↔ Condition s c := by
  have room : decide (Config.exitCapacity ≤ s.rst.exitQueue.length) = true ↔ 4 ≤ s.rst.exitQueue.length := decide_eq_true_iff
  have rest : decide (s.ssv.encoderQuiet < Config.encoderRest) = true ↔ s.ssv.encoderQuiet < 50000 := decide_eq_true_iff
  cases c <;> simp only [State.condition, Condition, room, rest, List.any_eq_true, silent_iff, Bool.and_eq_true] <;>
    simp [State.offline, Option.isSome_iff_ne_none, and_assoc]

theorem ofNumber_octet (c : Cause) : Cause.ofNumber (BitVec.ofNat 8 c.number).toNat = some c := by cases c <;> rfl

/-- R151: CLEAR_CAUSE of a latched cause whose condition is absent. -/
theorem clearCause_taken {s : State} {c : Cause} (on : s.ixs.state ≠ .offline) (absent : ¬Condition s c) (l : c.latched = true) :
    exec (.clearCause (BitVec.ofNat 8 c.number)) s = .next (Responded (s.unpend c).close 5 5 .done []) := by
  change execClearCause _ s = _
  unfold execClearCause
  rw [ofNumber_octet]
  dsimp only
  rw [if_neg (by simpa [State.offline] using on), if_neg (mt (condition_iff s c).1 absent), if_pos l]
  rfl

/-- R95, R151: the last cause of level 7 is cleared. -/
theorem clear_restarts {s : State} {c : Cause} (last : LastOfSeven s c) (l : c.latched = true) : Restarts s (s.unpend c).close := by
  obtain ⟨-, settled, n, was, seven, only, halted⟩ := last
  have follows := unpend_close_follows s c l
  refine restarts_of_last follows n (((close_same _).length.trans (unpend_same s c).length).trans n) halted seven was
    (unpend_close_pending s c n l) fun d ne lv => ?_
  rw [follows.quiet settled d (by simpa using ne)]
  exact Bool.eq_false_iff.2 fun p => only d ne p lv

/-- R95, R148: a command that ends a self-clearing cause in `u`, the state that it closes, and only answers beside. -/
theorem ends_restarts {s u t : State} {c : Cause} {i : Instr} (last : LastOfSeven s c) (k : c ∈ Cause.selfClearing)
    (e : EndsOnly c s u) (run : exec i s = .next t) (har : t.har = u.close.har) (ssv : t.ssv = u.close.ssv)
    (pgn : t.pgn = u.close.pgn) : ∃ t, exec i s = .next t ∧ t.har.isPending c = false ∧ Restarts s t := by
  obtain ⟨ended, restarts⟩ := close_restarts last k e
  refine ⟨t, run, by rw [har]; exact ended, ?_⟩
  unfold Restarts at restarts ⊢
  rwa [ssv, pgn]

/-- R22, R95: the beat instant leaves the note of line time before its step. -/
theorem beat_restarts {s : State} (last : LastOfSeven s .notInStep) (next : s.ltu.nextBeat ≠ none) (sampled : s.ltu.samples ≠ [])
    (hc : 15 ≤ s.ltu.coarseRun) (hf : 31 ≤ s.ltu.fineRun) (window : ∀ x ∈ s.ltu.samples, -25 ≤ x.offset ∧ x.offset ≤ 25) :
    ∃ t, exec .beatInstant s = .next t ∧ t.har.isPending .notInStep = false
      ∧ Restarts { s with pgn := { s.pgn with stepFrom := some (s.pgn.stepFrom.getD s.ltu.lineTime) } } t := by
  obtain ⟨b, e⟩ := Option.ne_none_iff_exists'.1 next
  obtain ⟨beat, fine⟩ := beat_inStep b sampled hc hf window
  have run : exec .beatInstant s = .next (s.takeBeat b).close := by
    change execBeatInstant s = _
    rw [execBeatInstant, e, ← beat]
  exact ⟨_, run, close_restarts (s := { s with pgn := _ }) last (by decide) (takeBeat_ends fine)⟩

/-- Settles O13: by `clear_restarts` for a cause that is cleared, and for one that clears itself by what its command ends (`EndsOnly`). -/
theorem lastLevelSevenCauseRestarts : Obligations.LastLevelSevenCauseRestarts := by
  intro s c last
  obtain ⟨on, settled, -, was, -⟩ := id last
  refine ⟨fun l absent => ⟨_, clearCause_taken on absent l, clear_restarts last l⟩, fun i h => ?_⟩
  have present (k : c ∈ Cause.selfClearing) := condition_of_pending settled k was
  rcases h with ⟨rfl, rfl⟩ | ⟨rfl, rfl, full⟩ | ⟨rfl, rfl, absent, state⟩ | ⟨rfl, rfl, next, sampled, hc, hf, window⟩
    | ⟨rfl, h, lv, k, m, clock, rfl, arrives, others⟩ | ⟨rfl, h, f, m, clock, rfl, arrives, forming, good, others⟩
  · have runs : s.lpt.foreignTimer.isSome = true := (Bool.and_eq_true_iff.1 (present (by decide))).2
    exact ends_restarts last (by decide) (foreignFrameTimerExpiry_ends s) (if_pos runs) rfl rfl rfl
  · obtain ⟨-, unload, -⟩ := (condition_iff s _).1 (present (by decide))
    cases q : s.rst.exitQueue with
    | nil => rw [q] at full; cases full
    | cons r rest =>
      have run : exec .takeExitRecord s = .next (State.respond
          (State.close { s with rst := { s.rst with exitQueue := rest } }) 4 13 .done (recordOctets r)) := by
        change execTakeExitRecord s = _
        rw [execTakeExitRecord, if_neg (by simp [State.offline, on, unload]), q]
        rfl
      exact ends_restarts last (by decide) (takeExitRecord_ends q full) run (State.respond_har ..)
        (State.respond_ssv ..) (State.respond_pgn ..)
  · obtain ⟨-, unknown⟩ := (condition_iff s _).1 (present (by decide))
    have declares : (s.ixs.state.declares && s.rst.status == .unknown && !s.inputs.palletPresent) = true := by
      rcases state with e | e | e <;> simp [e, unknown, absent, SeqState.declares]
    have run : exec .declareEmpty s = .next ((s.setFixture .empty none).keepOpen.close.respond 4 10 .done []) := if_pos declares
    exact ends_restarts last (by decide) (declareEmpty_ends state) run (State.respond_har ..) (State.respond_ssv ..)
      (State.respond_pgn ..)
  · exact beat_restarts last next sampled hc hf window
  · exact ends_restarts last (by decide) (deliverHold_ends others)
      (congrArg Host.Outcome.next (observe_arrives arrives)) rfl rfl rfl
  · exact ends_restarts last (by decide) (deliverJoin_ends forming good others)
      (congrArg Host.Outcome.next (observe_arrives arrives)) rfl rfl rfl

end Sys2Proof.SectionLine
end

section
/-! The 16th marked attempt: what the owner of the removed frame does, outside the wait of LOWERING (R6, R43, R51, R153). -/

set_option Elab.async false

namespace Sys2Proof.SectionLine

open Sys2Proof.Machine Sys2Proof.Safety Sys2Proof.Claims

/-! What the Hold Arbiter keeps of the transmit queue. -/

/-- A law of the transmit queue, the sequencer and the announced pair that no operation of the Hold Arbiter breaks. -/
structure HoldStable (P : State → Prop) : Prop where
  announce : ∀ s, P s → P s.announce
  stop : ∀ s n, P s → P (s.queueStop n)
  rest : ∀ {s t}, P s → t.lpt = s.lpt → t.ixs = s.ixs → t.har.announcedLevel = s.har.announcedLevel →
    t.har.announcedCause = s.har.announcedCause → P t

/-- R50, R94: a raising that is taken keeps what the announcement leaves. -/
theorem HoldStable.raise_taken {P : State → Prop} (p : HoldStable P) {s : State} {c : Cause}
    (h : ¬(s.offline ∨ s.har.level c = 0 ∨ s.har.isPending c)) (a : P { s with har := s.har.setPending c true }.announce) :
    P (s.raise c) := by
  rw [Machine.raise_taken s c h]
  dsimp only
  have drop {u : State} (k : P u) : P u.dropDrive := p.rest k (by simp) (by simp) (by simp) (by simp)
  split
  · split
    · exact drop (p.stop _ _ a)
    · exact drop a
  · split
    · exact p.stop _ _ a
    · exact a

theorem HoldStable.raise {P : State → Prop} (p : HoldStable P) {s : State} (c : Cause) (h : P s) : P (s.raise c) := by
  by_cases k : s.offline ∨ s.har.level c = 0 ∨ s.har.isPending c
  · rw [raise_ignored s c k]; exact h
  · exact p.raise_taken k (p.announce _ (p.rest h rfl rfl rfl rfl))

theorem HoldStable.unpend {P : State → Prop} (p : HoldStable P) {s : State} (c : Cause) (h : P s) : P (s.unpend c) := by
  have a : P { s with har := s.har.setPending c false }.announce := p.announce _ (p.rest h rfl rfl rfl rfl)
  unfold State.unpend
  split
  · dsimp only
    split
    · exact p.rest a (by simp) (by simp) (by simp) (by simp)
    · exact a
  · exact h

theorem HoldStable.close {P : State → Prop} (p : HoldStable P) {s : State} (h : P s) : P s.close := by
  have fold (l : List Cause) : ∀ u : State, P u → P (l.foldl State.refreshCause u) := by
    induction l with
    | nil => exact fun _ k => k
    | cons c l ih =>
      refine fun u k => ih _ ?_
      unfold State.refreshCause
      split
      · exact p.raise c k
      · exact p.unpend c k
  have a : P s.refreshCauses := fold Cause.selfClearing s h
  unfold State.close
  generalize s.refreshCauses = u at a
  exact p.rest a rfl rfl rfl rfl

/-- R153: HOLD with the announced pair stands in the transmit queue. -/
def HoldQueued (s : State) : Prop := ∃ f ∈ s.lpt.queue, f.payload = .hold s.har.announcedLevel s.har.announcedCause

/-- R153: HOLD of the pair is replaced by HOLD of a new pair only. -/
theorem holdQueued_stable : HoldStable HoldQueued where
  announce s h := by
    obtain ⟨same, new, -⟩ := announce_effects s
    by_cases e : SamePair s s.announce
    · rw [same e]; exact h
    · exact new e
  stop s n := fun ⟨f, i, e⟩ => ⟨f, (queueFrame_frames s _ (k := .hold) (by rintro ⟨⟩) f (by rw [e]; rfl)).2 i, e⟩
  rest := fun ⟨f, i, e⟩ lpt _ level cause => ⟨f, by rw [lpt]; exact i, by rw [level, cause]; exact e⟩

/-- R43: the station is not in READY, and no READY stands in the transmit queue. -/
def NoReady (s : State) : Prop := s.ixs.state ≠ .ready ∧ ∀ f ∈ s.lpt.queue, f.payload.kind ≠ .ready

theorem noReady_leaveReady (s : State) : NoReady s.leaveReady := by
  refine ⟨leaveReady_state s, fun f i => ?_⟩
  rw [leaveReady_lpt] at i
  simpa [ofKind] using (List.mem_filter.1 i).2

/-- R43: the Hold Arbiter queues no READY, and takes no station to READY. -/
theorem noReady_stable : HoldStable NoReady where
  announce s h := by
    obtain ⟨state, queue⟩ := h
    rcases announce_cases s with ⟨-, e⟩ | ⟨-, -, e⟩ | ⟨-, -, e⟩ <;> rw [e]
    · exact ⟨state, queue⟩
    · exact ⟨by simpa [State.announced] using state, fun f i k =>
        queue f ((announced_frames s (k := .ready) (by decide) (by decide) f k).1 i) k⟩
    · exact noReady_leaveReady _
  stop s n h := ⟨h.1, fun f i k => h.2 f ((queueFrame_frames s _ (k := .ready) (by rintro ⟨⟩) f k).1 i) k⟩
  rest h lpt ixs _ _ := by unfold NoReady; rw [lpt, ixs]; exact h

/-- R152: the announced pair is of no lower level than a pending cause. -/
theorem level_le_pair {h : Har} (n : h.causes.length = Cause.all.length) {c : Cause} (p : h.isPending c = true) :
    h.level c ≤ h.pair.1 := by
  have r := rank_le n p
  have l := pair_snd_lt n
  simp only [rank, Har.pairOf, show Cause.all.length = 24 from rfl] at r l
  omega

/-- R43: a cause of level 4 or higher that is raised withdraws READY. -/
theorem noReady_raise {s : State} {c : Cause} (n : EveryCause s) (on : s.offline = false) (l : 4 ≤ s.har.level c)
    (pair : PairAnnounced s) (withdrawn : ReadyWithdrawn s) : NoReady (s.raise c) := by
  by_cases high : 4 ≤ s.har.announcedLevel
  · obtain ⟨state, queue, -⟩ := withdrawn high
    exact noReady_stable.raise c ⟨state, queue⟩
  · have below : s.har.pair.1 = s.har.announcedLevel := (congrArg Prod.fst pair).symm
    have idle : ¬s.har.isPending c = true := fun p => by have := level_le_pair n p; omega
    refine noReady_stable.raise_taken (by simp [on, idle]; omega) ?_
    have new : 4 ≤ (s.har.setPending c true).pair.1 := by
      have e := level_le_pair ((setPending_length s.har c true).trans n) (setPending_self s.har c true n)
      rw [setPending_level] at e
      omega
    rcases announce_cases { s with har := s.har.setPending c true } with ⟨e, -⟩ | ⟨-, low, -⟩ | ⟨-, -, e⟩
    · have same : (s.har.setPending c true).pair.1 = s.har.announcedLevel := congrArg Prod.fst e
      omega
    · have low : (s.har.setPending c true).pair.1 ≤ 3 := low
      omega
    · rw [e]; exact noReady_leaveReady _

/-! The removed frame (R6). -/

/-- R6: the Line Port once the 16th mark has removed the frame of its buffer. -/
def FrameGone (s : State) : State :=
  { s with lpt := { s.lpt with buffer := none, withdrawHeld := false, frame := none, counted := none, count := 0 } }

/-- R6: LINE_TRANSMIT_FAILURE is raised. -/
def TransmitFailed (s : State) : State := (FrameGone s).raise .lineTransmitFailure

/-- R6: the 16th mark raises LINE_TRANSMIT_FAILURE, and the frame's owner acts. -/
theorem marked_removes {s : State} {f : QueuedFrame} (b : s.lpt.buffer = some f) (c : s.lpt.counted = some f.id)
    (n : s.lpt.count = 15) :
    s.marked = ((TransmitFailed s).frameRemoved f.payload).close := by
  have full : s.lpt.countAfterMark f = 16 := by rw [Lpt.countAfterMark, if_pos c, n]
  have e : s.lpt.mark = ((FrameGone s).lpt, some f.payload) := by
    rw [Lpt.mark, b]
    exact if_neg (by rw [full]; decide)
  rw [State.marked, e]
  rfl

/-- R124: the Record Store once a frame of the station has been removed: a HANDOVER leaves its record LOST. -/
def RecordLost (r : Rst) : Payload → Rst
  | .handover i _ => { r with outgoing := r.outgoing.map fun o => if o.index = i then { o with state := .lost } else o }
  | _ => r

/-- R59: the station waits in LOWERING for its HANDOVER. -/
def AwaitsHandover (s : State) : Prop := s.ixs.state = .lowering ∧ s.ixs.step = .handover

/-- R51, R124, R153: the owner of a removed frame queues a frame of its kind again, or none; a HANDOVER leaves its record LOST, which ends
no wait outside LOWERING. -/
theorem frameRemoved_cases (s : State) (p : Payload) (h : ¬(p.kind = .handover ∧ AwaitsHandover s)) :
    ∃ l, (l = s.lpt ∨ ∃ q : Payload, q.kind = p.kind ∧ l = s.lpt.enqueue q)
      ∧ s.frameRemoved p = { s with lpt := l, rst := RecordLost s.rst p } := by
  have readyKind : s.readyPayload.kind = .ready := by
    unfold State.readyPayload
    split <;> rfl
  have either {b : Prop} [Decidable b] {q : Payload} (k : q.kind = p.kind) (r : RecordLost s.rst p = s.rst) :
      ∃ l, (l = s.lpt ∨ ∃ q : Payload, q.kind = p.kind ∧ l = s.lpt.enqueue q)
        ∧ (if b then s.queueFrame q else s) = { s with lpt := l, rst := RecordLost s.rst p } := by
    rw [r]
    split
    · exact ⟨_, .inr ⟨q, k, rfl⟩, rfl⟩
    · exact ⟨_, .inl rfl, rfl⟩
  cases p with
  | ready f => exact either readyKind rfl
  | lifted i => exact either rfl rfl
  | resume i x => exact either rfl rfl
  | stop i c l => exact either (q := s.stopPayload _) rfl rfl
  | lowered i => exact either rfl rfl
  | hold l c => exact ⟨_, .inr ⟨.hold s.har.announcedLevel s.har.announcedCause, rfl, rfl⟩, rfl⟩
  | handover i c =>
    refine ⟨s.lpt, .inl rfl, ?_⟩
    cases e : s.rst.outgoing with
    | none => simp only [State.frameRemoved, RecordLost, e, Option.map_none]; rw [← e]
    | some o =>
      simp only [State.frameRemoved, RecordLost, e, Option.map_some]
      by_cases k : o.index = i
      · rw [if_pos k, if_pos k, State.tryLowered, if_neg fun w => h ⟨rfl, w.1, w.2.1⟩]
      · rw [if_neg k, if_neg k, ← e]
  | _ => exact ⟨s.lpt, .inl rfl, rfl⟩

/-! The whole of the 16th mark but in the wait of LOWERING. -/

theorem handover_of_recordLost {r : Rst} {i : IndexNo} {c : Option PalletRecord} {o : Outgoing} (h : r.outgoing = some o) :
    RecordLost r (.handover i c)
      = { r with outgoing := some { o with state := if o.index = i then .lost else o.state } } := by
  simp only [RecordLost, h, Option.map_some]
  split <;> rfl

theorem recordLost_other {r : Rst} {p : Payload} (h : p.kind ≠ .handover) : RecordLost r p = r := by
  cases p with
  | handover => exact absurd rfl h
  | _ => rfl

theorem holdFrame_withRecords {s t : State} (h : HoldFrame s t) (l : Lpt) (r : Rst) :
    HoldFrame { s with rst := r } { t with lpt := l, rst := r } :=
  ⟨h.ltu, h.peers, h.fxs, h.inputs, h.sampling, rfl, h.sim, h.cpt, h.items, h.freeTaken, h.pending, h.ixs⟩

/-- R9: a frame of another kind stands in the queue or not, whatever is queued. -/
theorem mem_enqueue_other {l : Lpt} {q : Payload} {g : QueuedFrame} (k : g.payload.kind ≠ q.kind) :
    g ∈ (l.enqueue q).queue ↔ g ∈ l.queue := mem_insertFrame_other fun e => k (priority_inj e)

/-- R6, R43, R51, R124: everything that the 16th mark does to a station that does not wait in LOWERING for the HANDOVER removed. -/
theorem removed_frame {s : State} {p : Payload} (h : ¬(p.kind = .handover ∧ AwaitsHandover s)) (t : State)
    (e : t = ((TransmitFailed s).frameRemoved p).close) :
    HoldFrame { s with rst := RecordLost s.rst p } t ∧ LatchedKept [.lineTransmitFailure] s t
      ∧ ∀ g : QueuedFrame, ofCauses g.payload = false → g.payload.kind ≠ p.kind → (g ∈ t.lpt.queue ↔ g ∈ s.lpt.queue) := by
  have frame := raise_frame (FrameGone s) .lineTransmitFailure
  have moves := raise_moves (FrameGone s) .lineTransmitFailure
  have same := raise_same (FrameGone s) .lineTransmitFailure
  change t = (((FrameGone s).raise .lineTransmitFailure).frameRemoved p).close at e
  generalize (FrameGone s).raise .lineTransmitFailure = v at *
  have still : ¬(p.kind = .handover ∧ AwaitsHandover v) := fun ⟨k, state, step⟩ => h ⟨k, by
    rcases frame.ixs with e | ⟨-, e⟩
    · exact ⟨e ▸ state, e ▸ step⟩
    · rw [e] at state; cases state⟩
  obtain ⟨l, kind, removed⟩ := frameRemoved_cases v p still
  rw [removed] at e
  have rst : v.rst = s.rst := frame.rst
  rw [rst] at e
  subst e
  refine ⟨(holdFrame_withRecords (s := s) ⟨frame.ltu, frame.peers, frame.fxs, frame.inputs, frame.sampling, frame.rst, frame.sim,
    frame.cpt, frame.items, frame.freeTaken, frame.pending, frame.ixs⟩ l _).trans (close_frame _), ⟨fun c => ?_, fun c lat ne => ?_⟩,
    fun g own k => ?_⟩
  · exact ((close_same _).level c).trans (same.level c)
  · exact ((close_same _).pending c lat).trans (same.pending c (by simpa using ne))
  · refine ((close_follows _).queue g own).trans (Iff.trans ?_ (moves.queue g own))
    rcases kind with rfl | ⟨q, hq, rfl⟩
    · exact Iff.rfl
    · exact mem_enqueue_other (by rw [hq]; exact k)

theorem onlyIn_of_frame {s t : State} {r : Rst} (h : HoldFrame { s with rst := r } t) : OnlyIn (.rst :: causeBlocks) s t := by
  refine ⟨fun b n => ?_, h.freeTaken, h.pending⟩
  cases b with
  | ltu => exact h.ltu
  | peers => exact h.peers
  | fxs => exact h.fxs
  | inputs => exact h.inputs
  | sampling => exact h.sampling
  | sim => exact h.sim
  | cpt => exact h.cpt
  | items => exact h.items
  | _ => exact absurd (by decide) n

/-! Each kind of frame. -/

section kinds

variable {s : State}

/-- R43: where a station is not in READY, the raising leaves it where it is. -/
theorem raise_ixs (c : Cause) (n : s.ixs.state ≠ .ready) : (s.raise c).ixs = s.ixs := by
  rcases (raise_frame s c).ixs with e | ⟨e, -⟩
  · exact e
  · exact absurd e n

/-- A frame through which no cause acts stays in the queue to the end of the command. -/
theorem queued_close {p : Payload} (own : ofCauses p = false) : ∃ g ∈ (s.queueFrame p).close.lpt.queue, g.payload = p :=
  ⟨⟨s.lpt.nextId, p⟩, ((close_follows _).queue _ own).2 (mem_insertFrame_self _ _), rfl⟩

/-- R153: HOLD is queued again. -/
theorem removed_hold (l c : Nat) : HoldQueued (s.frameRemoved (.hold l c)).close :=
  holdQueued_stable.close ⟨⟨s.lpt.nextId, _⟩, mem_insertFrame_self _ _, rfl⟩

/-- R59: LOWERED of the index just made is queued again. -/
theorem removed_lowered {i : IndexNo} (e : i = s.indexMade) :
    ∃ g ∈ (s.frameRemoved (.lowered i)).close.lpt.queue, g.payload = .lowered i := by
  rw [State.frameRemoved, if_pos e]
  exact queued_close rfl

/-- R47: LIFTED is queued again in LIFT_WAIT. -/
theorem removed_lifted {i : IndexNo} (e : s.ixs.state = .liftWait) :
    ∃ g ∈ (s.frameRemoved (.lifted i)).close.lpt.queue, g.payload = .lifted s.ixs.index := by
  rw [State.frameRemoved, if_pos e]
  exact queued_close rfl

/-- R63: RESUME is queued again in RESUME_WAIT. -/
theorem removed_resume {i : IndexNo} {x pos : Nat} (e : s.ixs.state = .resumeWait) (stop : s.pgn.stopPosition = some pos) :
    ∃ g ∈ (s.frameRemoved (.resume i x)).close.lpt.queue, g.payload = .resume s.ixs.index (pos / 256) := by
  have setpoint : s.pgn.stopSetpoint.getD 0 = pos / 256 := by rw [Pgn.stopSetpoint, stop]; rfl
  rw [State.frameRemoved, if_pos e, setpoint]
  exact queued_close rfl

/-- R43: READY is not queued again by a station that has left READY. -/
theorem removed_ready {f : ReadyFields} (h : NoReady s) : NoReady (s.frameRemoved (.ready f)).close := by
  rw [State.frameRemoved, if_neg h.1]
  exact noReady_stable.close h

/-- R50: STOP of an index with the announced pair stands in the transmit queue. -/
def StopQueued (i : IndexNo) (s : State) : Prop :=
  ∃ f ∈ s.lpt.queue, f.payload = .stop i s.har.announcedCause s.har.announcedLevel

/-- R50: STOP is queued again, naming the announced cause. -/
theorem removed_stop {c l : Nat} (state : s.ixs.state.queuesStop = true) (high : 6 ≤ s.har.announcedLevel)
    (settled : CausesSettled s) : StopQueued s.ixs.index (s.frameRemoved (.stop s.ixs.index c l)).close := by
  have calm : CausesSettled (s.queueStop s.har.announcedCause) := fun d k => by
    cases d <;> exact settled _ k
  rw [State.frameRemoved, if_pos ⟨rfl, state, high⟩, close_settled _ calm]
  exact ⟨⟨s.lpt.nextId, _⟩, mem_insertFrame_self _ _, rfl⟩

end kinds

end Sys2Proof.SectionLine
end

section
/-! The 16th marked attempt of the HANDOVER for which a station waits in LOWERING (R6, R59, R60, R124). -/

set_option Elab.async false

namespace Sys2Proof.SectionLine

open Sys2Proof.Machine Sys2Proof.Safety Sys2Proof.Claims

/-! What every owner of a removed frame leaves. -/

/-- From `u` to `t` frames are queued as new ones or withdrawn, and LINE_TRANSMIT_FAILURE stays as it is. -/
structure QueueMoves (u t : State) : Prop where
  link : t.lpt = { u.lpt with queue := t.lpt.queue, withdrawHeld := t.lpt.withdrawHeld, nextId := t.lpt.nextId }
  fresh : u.lpt.nextId ≤ t.lpt.nextId ∧ ∀ f ∈ t.lpt.queue, f ∈ u.lpt.queue ∨ u.lpt.nextId ≤ f.id
  causes : SameCauses (· = .lineTransmitFailure) u.har t.har

theorem QueueMoves.trans {u v t : State} (h : QueueMoves u v) (k : QueueMoves v t) : QueueMoves u t := by
  refine ⟨by rw [k.link, h.link], ⟨h.fresh.1.trans k.fresh.1, fun f i => ?_⟩, h.causes.trans k.causes⟩
  rcases k.fresh.2 f i with j | j
  · exact h.fresh.2 f j
  · exact .inr (h.fresh.1.trans j)

theorem QueueMoves.of_same {u t : State} (lpt : t.lpt = u.lpt) (har : t.har = u.har) : QueueMoves u t :=
  ⟨by rw [lpt], by rw [lpt]; exact ⟨Nat.le_refl _, fun _ => .inl⟩, by rw [har]; exact .rfl' _ _⟩

theorem QueueMoves.after_same {u v t : State} (k : QueueMoves v t) (lpt : v.lpt = u.lpt) (har : v.har = u.har) : QueueMoves u t :=
  (QueueMoves.of_same lpt har).trans k

theorem queueFrame_queueMoves (s : State) (p : Payload) : QueueMoves s (s.queueFrame p) := by
  refine ⟨rfl, ⟨Nat.le_succ _, fun f i => ?_⟩, .rfl' _ _⟩
  rcases mem_queueFrame i with rfl | j
  · exact .inr (Nat.le_refl _)
  · exact .inl j

theorem raise_queueMoves (s : State) {c : Cause} (h : c ≠ .lineTransmitFailure) : QueueMoves s (s.raise c) :=
  have moves := raise_moves s c
  ⟨moves.link, moves.fresh, (raise_same s c).mono fun _ e => e ▸ h.symm⟩

theorem close_queueMoves (s : State) : QueueMoves s s.close := by
  have follows := close_follows s
  exact ⟨follows.link, follows.fresh, (close_same s).mono fun _ e => e ▸ rfl⟩

/-! The seating decision and the return (R60, R126). -/

/-- Table 7-5: the causes of the seating decision. -/
theorem seatingRow_cause (slot : Option (Option PalletRecord)) (present : Bool) (plate : Nat) :
    (seatingRow slot present plate).2.2 ≠ some .lineTransmitFailure := by
  unfold seatingRow
  split <;> try split
  all_goals exact nofun

/-- A cause of the seating decision is raised, or none. -/
theorem raiseOpt_queueMoves (s : State) {c : Option Cause} (h : c ≠ some .lineTransmitFailure) : QueueMoves s (s.raiseOpt c) := by
  cases c with
  | none => exact .of_same rfl rfl
  | some c => exact raise_queueMoves s fun e => h (e ▸ rfl)

theorem raiseOpt_moves (s : State) (c : Option Cause) : HoldMoves s (s.raiseOpt c) := by
  cases c with
  | none => exact .rfl' s
  | some c => exact raise_moves s c

theorem raiseOpt_ixs {s : State} (c : Option Cause) (n : s.ixs.state ≠ .ready) : (s.raiseOpt c).ixs = s.ixs := by
  cases c with
  | none => rfl
  | some c => exact raise_ixs c n

/-- R60, R126: the station of a made seating decision, before the fixture is commanded. -/
def Decided (s : State) : State :=
  let row := seatingRow (s.rst.slotFor s.indexMade) s.inputs.palletPresent s.inputs.plate.toNat
  ((({ s with ixs := { s.ixs with upstreamTimer := none } }.goStep .seat).setFixture row.1 row.2.1).raiseOpt row.2.2)

/-- R60: in SEATING the decision is made and the fixture commanded, which may end the wait. -/
theorem decideSeating_cases {s : State} (h : s.ixs.state = .seating) :
    ∃ fx, s.decideSeating = { Decided s with fxs := fx } ∨ s.decideSeating = { Decided s with fxs := fx }.enterWorking := by
  have ixs : (Decided s).ixs.state = .seating := by
    unfold Decided
    rw [raiseOpt_ixs _ (by simp [h])]
    exact h
  have reported (fx : Fxs) := fixtureReported_declaring (s := { Decided s with fxs := fx }) (.inr (.inr ixs))
  have e : s.decideSeating = (Decided s).keepOpen ∨ s.decideSeating = (Decided s).seatFixture := by
    unfold State.decideSeating
    dsimp only
    split
    · exact .inl rfl
    · exact .inr rfl
  rcases e with e | e <;> rw [e] <;> exact ⟨_, reported _⟩

/-- R59, R60: the station enters SEATING and its first wait. -/
def SeatingEntered (s : State) : State := (s.goStep .upstream).enter .seating

/-- R60: the end of the wait of SEATING at its entry, by role and by the member upstream. -/
theorem enterSeating_cases (s : State) :
    let y := SeatingEntered s
    let limit := Config.timeout s.items.lowerTimeout
    (s.isLoad = true ∧ s.enterSeating = { y with ixs := { y.ixs with upstreamTimer := none } }.enterWorking)
      ∨ (s.isLoad = false ∧ s.upstreamLowered = true ∧ s.enterSeating = y.decideSeating)
      ∨ (s.isLoad = false ∧ s.upstreamLowered = false ∧ limit ≤ s.ixs.sinceCompletion ∧ s.enterSeating
          = { y with ixs := { y.ixs with upstreamTimer := none, lowerExpired := some .upstream } }.raise .lowerFault)
      ∨ (s.isLoad = false ∧ s.upstreamLowered = false ∧ s.ixs.sinceCompletion < limit ∧ s.enterSeating
          = { y with ixs := { y.ixs with upstreamTimer := some (limit - s.ixs.sinceCompletion) } }) := by
  dsimp only
  have e : s.enterSeating = if s.isLoad then { SeatingEntered s with ixs := { (SeatingEntered s).ixs with
        upstreamTimer := none } }.enterWorking
      else if s.upstreamLowered then (SeatingEntered s).decideSeating
      else if Config.timeout s.items.lowerTimeout ≤ s.ixs.sinceCompletion then
        { SeatingEntered s with ixs := { (SeatingEntered s).ixs with
          upstreamTimer := none, lowerExpired := some .upstream } }.raise .lowerFault
      else { SeatingEntered s with ixs := { (SeatingEntered s).ixs with
        upstreamTimer := some (Config.timeout s.items.lowerTimeout - s.ixs.sinceCompletion) } } := rfl
  by_cases load : s.isLoad = true
  · exact .inl ⟨load, by rw [e, if_pos load]⟩
  · rw [if_neg load] at e
    rw [Bool.not_eq_true] at load
    by_cases up : s.upstreamLowered = true
    · exact .inr (.inl ⟨load, up, by rw [e, if_pos up]⟩)
    · rw [if_neg up] at e
      rw [Bool.not_eq_true] at up
      by_cases late : Config.timeout s.items.lowerTimeout ≤ s.ixs.sinceCompletion
      · exact .inr (.inr (.inl ⟨load, up, late, by rw [e, if_pos late]⟩))
      · exact .inr (.inr (.inr ⟨load, up, Nat.lt_of_not_le late, by rw [e, if_neg late]⟩))

/-- R60: entering SEATING queues no LOWERED and withdraws none. -/
theorem enterSeating_keeps (s : State) : QueueMoves s s.enterSeating
    ∧ ∀ f : QueuedFrame, ofCauses f.payload = false → (f ∈ s.enterSeating.lpt.queue ↔ f ∈ s.lpt.queue) := by
  rcases enterSeating_cases s with ⟨-, e⟩ | ⟨-, -, e⟩ | ⟨-, -, -, e⟩ | ⟨-, -, -, e⟩ <;> rw [e]
  · exact ⟨.of_same rfl rfl, fun _ _ => Iff.rfl⟩
  · have raised : QueueMoves _ (Decided (SeatingEntered s)) := raiseOpt_queueMoves _ (seatingRow_cause _ _ _)
    have decided : QueueMoves s (Decided (SeatingEntered s)) := raised.after_same rfl rfl
    have queue (f : QueuedFrame) (own : ofCauses f.payload = false) :
        f ∈ (Decided (SeatingEntered s)).lpt.queue ↔ f ∈ s.lpt.queue := (raiseOpt_moves _ _).queue f own
    obtain ⟨fx, d | d⟩ := decideSeating_cases (s := SeatingEntered s) rfl <;> rw [d]
    · exact ⟨decided.trans (.of_same rfl rfl), queue⟩
    · exact ⟨decided.trans (.of_same rfl rfl), queue⟩
  · exact ⟨QueueMoves.after_same (raise_queueMoves _ (c := .lowerFault) (by decide)) rfl rfl, fun f own => (raise_moves _ _).queue f own⟩
  · exact ⟨.of_same rfl rfl, fun _ _ => Iff.rfl⟩

theorem commandReturn_queueMoves (s : State) : QueueMoves s s.commandReturn := by
  unfold State.commandReturn
  rcases moveShuttle_cases s .returning with ⟨-, e⟩ | ⟨-, e⟩ <;> rw [e] <;> split <;> exact .of_same rfl rfl

theorem tryLowered_queueMoves (s : State) : QueueMoves s s.tryLowered := by
  unfold State.tryLowered
  split
  · exact ((queueFrame_queueMoves s _).trans (commandReturn_queueMoves _)).trans (enterSeating_keeps _).1
  · exact .of_same rfl rfl

/-- R51, R124, R153: whichever frame was removed, its owner queues new frames alone. -/
theorem frameRemoved_queueMoves (s : State) (p : Payload) : QueueMoves s (s.frameRemoved p) := by
  by_cases h : p.kind = .handover ∧ AwaitsHandover s
  · cases p with
    | handover i c =>
      unfold State.frameRemoved
      dsimp only
      split
      · split
        · exact (tryLowered_queueMoves _).after_same rfl rfl
        · exact .of_same rfl rfl
      · exact .of_same rfl rfl
    | _ => cases h.1
  · obtain ⟨l, rfl | ⟨q, -, rfl⟩, e⟩ := frameRemoved_cases s p h <;> rw [e]
    · exact .of_same rfl rfl
    · exact (queueFrame_queueMoves s q).trans (.of_same rfl rfl)

/-! The HANDOVER removed in LOWERING with the lift DOWN. -/

/-- R124: the station once the HANDOVER of the index just made has left its record LOST. -/
def HandoverLost (s : State) (o : Outgoing) : State := { s with rst := { s.rst with outgoing := some { o with state := .lost } } }

/-- R59: with the lift DOWN the lost HANDOVER ends the wait of LOWERING. -/
theorem removed_handover {s : State} {c : Option PalletRecord} {o : Outgoing} (out : s.rst.outgoing = some o)
    (made : o.index = s.indexMade) (waits : AwaitsHandover s) (down : s.ssv.liftState = .down) :
    s.frameRemoved (.handover s.indexMade c)
      = (((HandoverLost s o).queueFrame (.lowered s.indexMade)).commandReturn).enterSeating := by
  have lost : (HandoverLost s o).handoverLost = true := by
    simp only [State.handoverLost, HandoverLost, Bool.and_eq_true, beq_iff_eq, and_true]
    exact made
  have e : s.frameRemoved (.handover s.indexMade c) = (HandoverLost s o).tryLowered := by
    simp only [State.frameRemoved, out, if_pos made]
    rfl
  rw [e, State.tryLowered, if_pos ⟨waits.1, waits.2, down, .inr (.inr lost)⟩]
  rfl

/-- R59, R82: the return is commanded. -/
theorem commandReturn_eq (s : State) : s.commandReturn = { s with
    ssv := if s.ssv.shuttle = .halted then { s.ssv with haltedFrom := some .returning }
      else { s.ssv with shuttle := .returning, repositionTarget := none, repositionUse := none }
    pgn := if s.ssv.shuttle = .halted then s.pgn
      else s.pgn.prepareMove .ret s.pitch 0 s.items.vmax s.items.accel s.ltu.lineTime } := by
  unfold State.commandReturn State.moveShuttle
  by_cases h : s.ssv.shuttle = .halted
  · simp only [if_pos h]
  · simp only [if_neg h]
    rfl

/-- R60: whether the member directly upstream has lowered. -/
theorem upstreamLowered_iff (s : State) : s.upstreamLowered = true ↔ UpstreamLowered s := by
  unfold State.upstreamLowered UpstreamLowered
  cases s.peers[s.ownIdx - 1]? <;> simp

/-- R59: the station that has queued LOWERED, commanded the return and entered SEATING. -/
theorem seatingEntered_eq (s : State) :
    SeatingEntered ((s.queueFrame (.lowered s.indexMade)).commandReturn) = LoweredQueued s := by
  rw [commandReturn_eq]
  rfl

/-- R60: the first wait of SEATING after the HANDOVER of the index just made has been removed: it ends with the load role, with a member
upstream that has lowered, or with its time; or its timer starts. -/
theorem removed_handover_cases {s : State} {c : Option PalletRecord} {o : Outgoing} (out : s.rst.outgoing = some o)
    (made : o.index = s.indexMade) (waits : AwaitsHandover s) (down : s.ssv.liftState = .down) :
    let y := LoweredQueued (HandoverLost s o)
    let limit := Timeout s.items.lowerTimeout
    let w := s.frameRemoved (.handover s.indexMade c)
    (s.isLoad = true ∧ w = { y with ixs := { y.ixs with upstreamTimer := none } }.enterWorking)
      ∨ (s.isLoad = false ∧ UpstreamLowered s ∧ w = y.decideSeating)
      ∨ (s.isLoad = false ∧ ¬UpstreamLowered s ∧ limit ≤ s.ixs.sinceCompletion ∧ w
          = { y with ixs := { y.ixs with upstreamTimer := none, lowerExpired := some .upstream } }.raise .lowerFault)
      ∨ (s.isLoad = false ∧ ¬UpstreamLowered s ∧ s.ixs.sinceCompletion < limit ∧ w
          = { y with ixs := { y.ixs with upstreamTimer := some (limit - s.ixs.sinceCompletion) } }) := by
  dsimp only
  have e := removed_handover (c := c) out made waits down
  have cases := enterSeating_cases ((HandoverLost s o).queueFrame (.lowered s.indexMade)).commandReturn
  have up := upstreamLowered_iff s
  have entered := seatingEntered_eq (HandoverLost s o)
  dsimp only at cases
  rw [show (HandoverLost s o).indexMade = s.indexMade from rfl] at entered
  rw [entered, ← e, timeout_eq, commandReturn_eq] at cases
  rw [← up, Bool.not_eq_true]
  exact cases

/-! What the raising leaves of a station in LOWERING. -/

/-- The blocks of a station that the raising of LINE_TRANSMIT_FAILURE leaves. -/
theorem transmitFailed_frame (s : State) : HoldFrame (FrameGone s) (TransmitFailed s) := raise_frame _ _

theorem transmitFailed_ixs {s : State} (n : s.ixs.state ≠ .ready) : (TransmitFailed s).ixs = s.ixs :=
  raise_ixs (s := FrameGone s) _ n

theorem transmitFailed_rst (s : State) : (TransmitFailed s).rst = s.rst := (transmitFailed_frame s).rst

/-- R6: LINE_TRANSMIT_FAILURE is pending. -/
theorem transmitFailed_pending {s : State} (on : s.ixs.state ≠ .offline) (levels : LevelsLegal s) :
    (TransmitFailed s).har.isPending .lineTransmitFailure = true := by
  have floor : 6 ≤ s.har.level .lineTransmitFailure := (levels.2 .lineTransmitFailure).1
  exact raise_pending (FrameGone s) _ (by simpa [State.offline, FrameGone] using on) (show 1 ≤ s.har.level _ by omega) levels.1

theorem transmitFailed_everyCause {s : State} (levels : LevelsLegal s) : EveryCause (TransmitFailed s) :=
  (raise_same (FrameGone s) _).length.trans levels.1

/-- R148: self-clearing causes stay settled. -/
theorem transmitFailed_settled {s : State} (settled : CausesSettled s) : CausesSettled (TransmitFailed s) := by
  have gone : CausesSettled (FrameGone s) := fun c k => by cases c <;> exact settled _ k
  exact settled_after (exc := [.lineTransmitFailure]) (raise_frame _ _) (raise_moves _ _) ((raise_same _ _).mono (by simp))
    (by simp [Cause.latched]) gone

/-- R94: the drive and the profile stay where LINE_TRANSMIT_FAILURE does not halt the shuttle anew. -/
theorem transmitFailed_drive {s : State} (on : s.ixs.state ≠ .offline) (levels : LevelsLegal s)
    (quiet : s.har.level .lineTransmitFailure ≠ 7 ∨ s.har.isPending .lineTransmitFailure = true) :
    (TransmitFailed s).ssv = s.ssv ∧ (TransmitFailed s).pgn = s.pgn := by
  refine (raise_effects (FrameGone s) .lineTransmitFailure levels.1).drive fun c l => ?_
  by_cases e : c = .lineTransmitFailure
  · subst e
    rcases quiet with no | yes
    · exact absurd l no
    · exact (transmitFailed_pending on levels).trans yes.symm
  · exact (raise_same (FrameGone s) _).pending c e

/-- R6, R9: the frame is gone, the cause is pending, and every frame queued since is a new one. -/
theorem removed_general {s : State} (p : Payload) (on : s.ixs.state ≠ .offline) (levels : LevelsLegal s) :
    let t := ((TransmitFailed s).frameRemoved p).close
    t.har.isPending .lineTransmitFailure = true ∧ t.lpt.buffer = none ∧ t.lpt.frame = none ∧ t.lpt.counted = none ∧ t.lpt.count = 0
      ∧ ∀ g ∈ t.lpt.queue, g ∈ s.lpt.queue ∨ s.lpt.nextId ≤ g.id := by
  have moves := (frameRemoved_queueMoves (TransmitFailed s) p).trans (close_queueMoves _)
  have raised : HoldMoves (FrameGone s) (TransmitFailed s) := raise_moves _ _
  have pending := (moves.causes.pending _ rfl).trans (transmitFailed_pending on levels)
  dsimp only
  generalize ((TransmitFailed s).frameRemoved p).close = t at *
  refine ⟨pending, ?_, ?_, ?_, ?_, fun g i => ?_⟩
  iterate 4 rw [moves.link, raised.link]; rfl
  rcases moves.fresh.2 g i with j | j
  · exact raised.fresh.2 g j
  · exact .inr (raised.fresh.1.trans j)

/-! The station at the end of the 16th mark of its HANDOVER. -/

theorem close_ixs {s : State} (n : s.ixs.state ≠ .ready) : s.close.ixs = s.ixs := by
  rcases (close_frame s).ixs with e | ⟨e, -⟩
  · exact e
  · exact absurd e n

/-- R148: what the conditions of the self-clearing causes depend on. -/
theorem condition_congr {s t : State} (offline : t.offline = s.offline) (timer : t.lpt.foreignTimer = s.lpt.foreignTimer)
    (items : t.items = s.items) (status : t.rst.status = s.rst.status) (exit : t.rst.exitQueue = s.rst.exitQueue)
    (ltu : t.ltu = s.ltu) (peers : t.peers = s.peers) {c : Cause} (k : c ∈ Cause.selfClearing) : t.condition c = s.condition c := by
  have unload : t.isUnload = s.isUnload := by
    unfold State.isUnload State.ownIdx State.memberCount State.memberList State.stationNo
    rw [items]
  simp only [Cause.selfClearing, List.mem_cons, List.not_mem_nil, or_false] at k
  rcases k with rfl | rfl | rfl | rfl | rfl | rfl <;>
    simp only [State.condition, offline, timer, unload, status, exit, ltu, peers]

/-- R59: LOWERED of the index just made stands in the queue. -/
theorem removed_handover_lowered {s : State} {c : Option PalletRecord} {o : Outgoing} (out : s.rst.outgoing = some o)
    (made : o.index = s.indexMade) (waits : AwaitsHandover s) (down : s.ssv.liftState = .down) :
    ∃ g ∈ (s.frameRemoved (.handover s.indexMade c)).close.lpt.queue, g.payload = .lowered s.indexMade := by
  rw [removed_handover out made waits down]
  refine ⟨⟨s.lpt.nextId, .lowered s.indexMade⟩, ((close_follows _).queue _ rfl).2 (((enterSeating_keeps _).2 _ rfl).2 ?_), rfl⟩
  rw [commandReturn_eq]
  exact mem_insertFrame_self _ _

/-- R60: the seating decision has been made. -/
theorem decideSeating_close {s : State} (h : s.ixs.state = .seating) :
    s.decideSeating.close.ixs.step = .seat ∨ s.decideSeating.close.ixs.state = .working := by
  have ixs : (Decided s).ixs.step = .seat ∧ (Decided s).ixs.state = .seating := by
    unfold Decided
    rw [raiseOpt_ixs _ (by simp [h])]
    exact ⟨rfl, h⟩
  obtain ⟨fx, e | e⟩ := decideSeating_cases h <;> rw [e]
  · rw [close_ixs (s := { Decided s with fxs := fx }) fun x => by cases ixs.2.symm.trans x]
    exact .inl ixs.1
  · rw [close_ixs (by exact nofun)]
    exact .inr rfl

/-- R59, R60, R82: the return that is commanded and the wait of SEATING do not depend on the raising, where it halts nothing. -/
theorem loweredQueued_drive {s v : State} (o : Outgoing) (ssv : v.ssv = s.ssv) (pgn : v.pgn = s.pgn) (items : v.items = s.items)
    (ltu : v.ltu = s.ltu) : (LoweredQueued (HandoverLost v o)).ssv = (LoweredQueued s).ssv
      ∧ (LoweredQueued (HandoverLost v o)).pgn = (LoweredQueued s).pgn := by
  simp only [LoweredQueued, HandoverLost, State.pitch, ssv, pgn, items, ltu, and_self]

/-- R60, R148: with the self-clearing causes settled, a station that waits in SEATING or has ended the wait keeps its drive and profile to the
end of the command. -/
theorem close_drive {v w : State} (settled : CausesSettled v) (on : v.offline = false) (won : w.offline = false) (har : w.har = v.har)
    (timer : w.lpt.foreignTimer = v.lpt.foreignTimer) (items : w.items = v.items) (status : w.rst.status = v.rst.status)
    (exit : w.rst.exitQueue = v.rst.exitQueue) (ltu : w.ltu = v.ltu) (peers : w.peers = v.peers) :
    w.close.ssv = w.ssv ∧ w.close.pgn = w.pgn := by
  have calm : CausesSettled w := fun c k => by
    rw [har, condition_congr (won.trans on.symm) timer items status exit ltu peers k]
    exact settled c k
  rw [close_settled w calm]
  exact ⟨rfl, rfl⟩

/-- R6, R59, R60, R124: the 16th mark of the HANDOVER for which the station waits in LOWERING, the lift DOWN. -/
theorem lowering_ended {s : State} {c : Option PalletRecord} {o : Outgoing} (levels : LevelsLegal s) (out : s.rst.outgoing = some o)
    (made : o.index = s.indexMade) (waits : AwaitsHandover s) (down : s.ssv.liftState = .down) :
    let t := ((TransmitFailed s).frameRemoved (.handover s.indexMade c)).close
    let x := LoweredQueued s
    let limit := Timeout s.items.lowerTimeout
    (∃ g ∈ t.lpt.queue, g.payload = .lowered s.indexMade)
      ∧ (s.isLoad = true → t.ixs = { x.ixs with state := .working, step := .none, upstreamTimer := none })
      ∧ (s.isLoad = false → UpstreamLowered s → t.ixs.step = .seat ∨ t.ixs.state = .working)
      ∧ (s.isLoad = false → ¬UpstreamLowered s → s.ixs.sinceCompletion < limit →
          t.ixs = { x.ixs with upstreamTimer := some (limit - s.ixs.sinceCompletion) })
      ∧ (s.isLoad = false → ¬UpstreamLowered s → limit ≤ s.ixs.sinceCompletion → t.har.isPending .lowerFault = true)
      ∧ (s.isLoad = true ∨ ¬UpstreamLowered s → t.rst = { s.rst with outgoing := some { o with state := .lost } }
          ∧ (CausesSettled s → s.ixs.sinceCompletion < limit →
              s.har.level .lineTransmitFailure ≠ 7 ∨ s.har.isPending .lineTransmitFailure = true →
              t.ssv = x.ssv ∧ t.pgn = x.pgn)) := by
  have state : s.ixs.state = .lowering := waits.1
  have on : s.ixs.state ≠ .offline := by rw [state]; nofun
  have ixs : (TransmitFailed s).ixs = s.ixs := transmitFailed_ixs (by rw [state]; nofun)
  have rst := transmitFailed_rst s
  have frame := transmitFailed_frame s
  have items : (TransmitFailed s).items = s.items := frame.items
  have peers : (TransmitFailed s).peers = s.peers := frame.peers
  have ltu : (TransmitFailed s).ltu = s.ltu := frame.ltu
  have lift : (TransmitFailed s).ssv.liftState = .down := by
    have e : HoldMoves (FrameGone s) (TransmitFailed s) := raise_moves _ _
    rw [e.ssv]
    exact down
  have n := transmitFailed_everyCause levels
  have level : 1 ≤ (TransmitFailed s).har.level .lowerFault := by
    have e : (TransmitFailed s).har.level .lowerFault = s.har.level .lowerFault := (raise_same (FrameGone s) _).level _
    have floor : 1 ≤ Cause.lowerFault.floor := by decide
    rw [e]
    exact floor.trans (levels.2 .lowerFault).1
  have calm := fun k => transmitFailed_settled (s := s) k
  have drive := fun k => transmitFailed_drive on levels k
  generalize TransmitFailed s = v at *
  have made' : s.indexMade = v.indexMade := by rw [State.indexMade, ← ixs]; rfl
  have load : v.isLoad = s.isLoad := by
    unfold State.isLoad State.ownIdx State.memberList State.stationNo
    rw [items]
  have up : UpstreamLowered v ↔ UpstreamLowered s := by
    unfold UpstreamLowered State.ownIdx State.memberList State.stationNo State.indexMade
    rw [items, peers, ixs]
  have out' : v.rst.outgoing = some o := by rw [rst]; exact out
  have waits' : AwaitsHandover v := by unfold AwaitsHandover; rw [ixs]; exact waits
  have von : v.offline = false := by rw [State.offline, ixs, state]; rfl
  have cases := removed_handover_cases (c := c) out' (made.trans made') waits' lift
  have lowered := removed_handover_lowered (c := c) out' (made.trans made') waits' lift
  have entered : (LoweredQueued (HandoverLost v o)).ixs = (LoweredQueued s).ixs := by
    simp only [LoweredQueued, HandoverLost, ixs]
  have lost : (LoweredQueued (HandoverLost v o)).rst = { s.rst with outgoing := some { o with state := .lost } } := by
    rw [← rst]
    rfl
  dsimp only at cases ⊢
  rw [← made', load, up, items, ixs] at cases
  rw [← made'] at lowered
  have notBoth (yes : s.isLoad = true) (no : s.isLoad = false) : False := by rw [yes] at no; cases no
  have moved (k : CausesSettled s) (q) : (LoweredQueued (HandoverLost v o)).ssv = (LoweredQueued s).ssv
      ∧ (LoweredQueued (HandoverLost v o)).pgn = (LoweredQueued s).pgn :=
    loweredQueued_drive o (drive q).1 (drive q).2 items ltu
  refine ⟨lowered, ?_⟩
  rcases cases with ⟨l, e⟩ | ⟨l, u, e⟩ | ⟨l, u, late, e⟩ | ⟨l, u, early, e⟩ <;> rw [e]
  · refine ⟨fun _ => ?_, fun no => (notBoth l no).elim, fun no => (notBoth l no).elim, fun no => (notBoth l no).elim, fun _ =>
      ⟨?_, fun k _ q => ?_⟩⟩
    · rw [close_ixs (by exact nofun)]
      exact congrArg (fun k : Ixs => { k with upstreamTimer := none, step := .none, lowerExpired := none, state := .working }) entered
    · exact (close_frame _).rst.trans lost
    · have same := close_drive (w := State.enterWorking { LoweredQueued (HandoverLost v o) with
        ixs := { (LoweredQueued (HandoverLost v o)).ixs with upstreamTimer := none } }) (calm k) von rfl rfl rfl rfl rfl rfl rfl rfl
      exact ⟨same.1.trans (moved k q).1, same.2.trans (moved k q).2⟩
  · exact ⟨fun yes => (notBoth yes l).elim, fun _ _ => decideSeating_close rfl, fun _ no => absurd u no, fun _ no => absurd u no,
      fun h => (h.elim (fun yes => notBoth yes l) fun no => no u).elim⟩
  · refine ⟨fun yes => (notBoth yes l).elim, fun _ yes => absurd yes u, fun _ _ early => absurd late (Nat.not_le.2 early), fun _ _ _ =>
      ?_, fun _ => ⟨?_, fun _ early => absurd late (Nat.not_le.2 early)⟩⟩
    · exact raise_close_pending _ _ nofun level n rfl
    · exact ((raise_frame _ _).trans (close_frame _)).rst.trans lost
  · refine ⟨fun yes => (notBoth yes l).elim, fun _ yes => absurd yes u, fun _ _ _ => ?_, fun _ _ late =>
      absurd late (Nat.not_le.2 early), fun _ => ⟨?_, fun k _ q => ?_⟩⟩
    · rw [close_ixs (by exact nofun)]
      exact congrArg (fun k : Ixs => { k with
        upstreamTimer := some (Timeout s.items.lowerTimeout - s.ixs.sinceCompletion) }) entered
    · exact (close_frame _).rst.trans lost
    · have same := close_drive (w := { LoweredQueued (HandoverLost v o) with
        ixs := { (LoweredQueued (HandoverLost v o)).ixs with
          upstreamTimer := some (Timeout s.items.lowerTimeout - s.ixs.sinceCompletion) } }) (calm k) von rfl rfl rfl rfl rfl rfl rfl rfl
      exact ⟨same.1.trans (moved k q).1, same.2.trans (moved k q).2⟩

/-! The 16th mark. -/

/-- R152: the announced level is that of LINE_TRANSMIT_FAILURE or higher. -/
theorem transmitFailed_announced {s : State} (on : s.ixs.state ≠ .offline) (levels : LevelsLegal s) (pair : PairAnnounced s) :
    6 ≤ (TransmitFailed s).har.announcedLevel := by
  have announced : PairAnnounced (TransmitFailed s) := (raise_effects (FrameGone s) .lineTransmitFailure levels.1).announced pair
  have level := level_le_pair (transmitFailed_everyCause levels) (transmitFailed_pending on levels)
  have same : (TransmitFailed s).har.level .lineTransmitFailure = s.har.level .lineTransmitFailure :=
    (raise_same (FrameGone s) _).level _
  have floor : 6 ≤ s.har.level .lineTransmitFailure := (levels.2 .lineTransmitFailure).1
  rw [show (TransmitFailed s).har.announcedLevel = _ from congrArg Prod.fst announced]
  omega

/-- R43: LINE_TRANSMIT_FAILURE withdraws READY. -/
theorem transmitFailed_noReady {s : State} (on : s.ixs.state ≠ .offline) (levels : LevelsLegal s) (pair : PairAnnounced s)
    (withdrawn : ReadyWithdrawn s) : NoReady (TransmitFailed s) := by
  have floor : 6 ≤ s.har.level .lineTransmitFailure := (levels.2 .lineTransmitFailure).1
  exact noReady_raise (s := FrameGone s) levels.1 (by simpa [State.offline, FrameGone] using on)
    (show 4 ≤ s.har.level _ by omega) pair fun high => ⟨(withdrawn high).1, (withdrawn high).2.1, nofun⟩

/-- Settles O22: what holds of every frame (`removed_general`), what holds outside the wait of LOWERING (`removed_frame`), the frames queued
again kind by kind, and the HANDOVER in that wait (`lowering_ended`). -/
theorem sixteenthMarkRemoves : Obligations.SixteenthMarkRemoves := by
  intro s f frame buffer counted count on levels
  obtain ⟨pending, gone, out, uncounted, zero, fresh⟩ := removed_general f.payload on levels
  have stays {st : SeqState} (e : s.ixs.state = st) (n : st ≠ .ready) : (TransmitFailed s).ixs = s.ixs :=
    transmitFailed_ixs (by rw [e]; exact n)
  have index : (TransmitFailed s).ixs.index = s.ixs.index := by
    rcases (transmitFailed_frame s).ixs with e | ⟨-, e⟩ <;> rw [e] <;> rfl
  refine ⟨_, (exec_frameMarked frame).trans (congrArg _ (marked_removes buffer counted count)), pending, gone, out, uncounted, zero, fresh,
    fun k => ?_, fun k => ?_, fun e => ?_, fun k state => ?_, fun k state pos stop => ?_, fun k pair withdrawn => ?_,
    fun c lv e state pair settled => ?_, fun c o e outgoing made state step down => ?_⟩
  · obtain ⟨held, kept, queue⟩ := removed_frame (p := f.payload) k _ rfl
    refine ⟨onlyIn_of_frame held, kept, queue, fun other => ?_, fun i c o e outgoing => ?_⟩
    · rw [recordLost_other other] at held
      exact ⟨held.rst, held.ixs⟩
    · rw [held.rst, e]
      exact handover_of_recordLost (c := c) outgoing
  · cases e : f.payload with
    | hold l c => exact removed_hold l c
    | _ => rw [e] at k; cases k
  · rw [e]
    exact removed_lowered (by rw [State.indexMade, State.indexMade, index])
  · cases e : f.payload with
    | lifted i =>
      rw [← index]
      exact removed_lifted (by rw [stays state nofun]; exact state)
    | _ => rw [e] at k; cases k
  · cases e : f.payload with
    | resume i x =>
      have same : HoldMoves (FrameGone s) (TransmitFailed s) := raise_moves _ _
      rw [← index]
      exact removed_resume (by rw [stays state nofun]; exact state) (same.stopPosition.trans stop)
    | _ => rw [e] at k; cases k
  · cases e : f.payload with
    | ready x => exact removed_ready (transmitFailed_noReady on levels pair withdrawn)
    | _ => rw [e] at k; cases k
  · have ixs : (TransmitFailed s).ixs = s.ixs := transmitFailed_ixs fun r => by rw [r] at state; simp at state
    have queues : (TransmitFailed s).ixs.state.queuesStop = true := by
      rw [ixs]
      simp only [List.mem_cons, List.not_mem_nil, or_false] at state
      rcases state with e | e | e | e <;> rw [e] <;> rfl
    rw [e, ← index]
    exact removed_stop queues (transmitFailed_announced on levels pair) (transmitFailed_settled settled)
  · rw [e]
    exact lowering_ended levels outgoing made ⟨state, step⟩ down

end Sys2Proof.SectionLine
end

section
/-! Line time and the step detector: which operations leave the Line Time Unit, and what a step can do to it (R20 to R34). -/

namespace Sys2Proof.StepTime

open Sys2Proof.Machine Sys2Proof.Safety

variable {s t u : State}

/-! What the operations of the other blocks leave: the Line Time Unit. -/

/-- A test between two states that both have the Line Time Unit of a third. -/
theorem ltu_ite {b : Prop} [Decidable b] (h : t.ltu = s.ltu) (k : u.ltu = s.ltu) : (if b then t else u).ltu = s.ltu := by
  split
  · exact h
  · exact k

@[simp] theorem raise_ltu (s : State) (c : Cause) : (s.raise c).ltu = s.ltu := (raise_frame s c).ltu

@[simp] theorem unpend_ltu (s : State) (c : Cause) : (s.unpend c).ltu = s.ltu := (unpend_frame s c).ltu

@[simp] theorem restart_ltu (s : State) : s.restart.ltu = s.ltu := (restart_frame s).ltu

@[simp] theorem close_ltu (s : State) : s.close.ltu = s.ltu := (close_frame s).ltu

@[simp] theorem moveShuttle_ltu (s : State) (st : ShuttleState) : (s.moveShuttle st).ltu = s.ltu := ltu_ite rfl rfl

@[simp] theorem liftReported_ltu (s : State) : s.liftReported.ltu = s.ltu := ltu_ite rfl rfl

@[simp] theorem fixtureReported_ltu (s : State) : s.fixtureReported.ltu = s.ltu := by
  unfold State.fixtureReported
  split
  · exact ltu_ite (liftReported_ltu _) rfl
  · exact ltu_ite rfl rfl
  · exact ltu_ite rfl rfl
  · rfl

@[simp] theorem openFixture_ltu (s : State) : s.openFixture.ltu = s.ltu := fixtureReported_ltu _

@[simp] theorem seatFixture_ltu (s : State) : s.seatFixture.ltu = s.ltu := fixtureReported_ltu _

@[simp] theorem keepOpen_ltu (s : State) : s.keepOpen.ltu = s.ltu := fixtureReported_ltu _

@[simp] theorem raiseOpt_ltu (s : State) (c : Option Cause) : (s.raiseOpt c).ltu = s.ltu := by
  cases c with
  | none => rfl
  | some c => exact raise_ltu s c

@[simp] theorem decideSeating_ltu (s : State) : s.decideSeating.ltu = s.ltu := ltu_ite (by simp) (by simp)

@[simp] theorem moveRecord_ltu (s : State) : s.moveRecord.ltu = s.ltu := by
  unfold State.moveRecord
  rw [keepOpen_ltu]
  exact ltu_ite (s := s) rfl rfl

@[simp] theorem updateImage_ltu (s : State) (m : Nat) (f : ReadyFields) : (s.updateImage m f).ltu = s.ltu :=
  ltu_ite (raise_ltu _ _) rfl

@[simp] theorem enterReleasing_ltu (s : State) : s.enterReleasing.ltu = s.ltu := by
  unfold State.enterReleasing
  rw [openFixture_ltu]
  have stop (u : State) : (if 6 ≤ u.har.announcedLevel then u.queueStop u.har.announcedCause else u).ltu = u.ltu :=
    ltu_ite rfl rfl
  exact ltu_ite (stop _) ((raise_ltu _ _).trans (stop _))

@[simp] theorem checkReadyBarrier_ltu (s : State) : s.checkReadyBarrier.ltu = s.ltu := ltu_ite (enterReleasing_ltu s) rfl

@[simp] theorem abandonSeat_ltu (s : State) : s.abandonSeat.ltu = s.ltu :=
  ltu_ite (fixtureReported_ltu _) (seatFixture_ltu _)

@[simp] theorem abandon_ltu (s : State) : s.abandon.ltu = s.ltu := ltu_ite (abandonSeat_ltu _) rfl

@[simp] theorem startMotion_ltu (s : State) (p : Pgn) (x : LineTime) : (s.startMotion p x).ltu = s.ltu :=
  ltu_ite (moveShuttle_ltu _ _) (moveShuttle_ltu _ _)

@[simp] theorem checkLiftedBarrier_ltu (s : State) (x : LineTime) : (s.checkLiftedBarrier x).ltu = s.ltu :=
  ltu_ite (startMotion_ltu _ _ _) rfl

@[simp] theorem checkResumeBarrier_ltu (s : State) (x : LineTime) : (s.checkResumeBarrier x).ltu = s.ltu :=
  ltu_ite (startMotion_ltu _ _ _) rfl

@[simp] theorem stopMotion_ltu (s : State) (x : LineTime) : (s.stopMotion x).ltu = s.ltu := by
  unfold State.stopMotion
  dsimp only
  split
  · exact moveShuttle_ltu _ _
  · rfl

@[simp] theorem takeStop_ltu (s : State) (x : LineTime) : (s.takeStop x).ltu = s.ltu := by
  unfold State.takeStop
  dsimp only
  split
  · exact abandon_ltu _
  · exact abandon_ltu _
  · exact stopMotion_ltu _ _
  · rfl
  · rfl
  · rfl

@[simp] theorem rampEnded_ltu (s : State) : s.rampEnded.ltu = s.ltu := ltu_ite (moveShuttle_ltu _ _) (moveShuttle_ltu _ _)

@[simp] theorem enterLowering_ltu (s : State) : s.enterLowering.ltu = s.ltu := ltu_ite rfl (restart_ltu _)

@[simp] theorem commonCompleted_ltu (s : State) : s.commonCompleted.ltu = s.ltu :=
  ltu_ite ((enterLowering_ltu _).trans (moveShuttle_ltu _ _)) (moveShuttle_ltu _ _)

@[simp] theorem enterSeating_ltu (s : State) : s.enterSeating.ltu = s.ltu :=
  ltu_ite rfl (ltu_ite (decideSeating_ltu _) (ltu_ite (raise_ltu _ _) rfl))

@[simp] theorem commandReturn_ltu (s : State) : s.commandReturn.ltu = s.ltu :=
  ltu_ite (moveShuttle_ltu _ _) (moveShuttle_ltu _ _)

@[simp] theorem tryLowered_ltu (s : State) : s.tryLowered.ltu = s.ltu := ltu_ite (by simp) rfl

@[simp] theorem liftDownReported_ltu (s : State) : s.liftDownReported.ltu = s.ltu := by
  unfold State.liftDownReported
  split
  · exact abandonSeat_ltu _
  · exact tryLowered_ltu _
  · exact tryLowered_ltu _

@[simp] theorem lowerPallet_ltu (s : State) : s.lowerPallet.ltu = s.ltu := ltu_ite (liftDownReported_ltu _) rfl

@[simp] theorem endUpstreamWait_ltu (s : State) (m : Nat) : (s.endUpstreamWait m).ltu = s.ltu :=
  ltu_ite (decideSeating_ltu s) rfl

@[simp] theorem frameRemoved_ltu (s : State) (p : Payload) : (s.frameRemoved p).ltu = s.ltu := by
  unfold State.frameRemoved
  split
  · exact ltu_ite rfl rfl
  · exact ltu_ite rfl rfl
  · exact ltu_ite rfl rfl
  · exact ltu_ite rfl rfl
  · exact ltu_ite rfl rfl
  · rfl
  · split
    · exact ltu_ite (tryLowered_ltu _) rfl
    · rfl
  · rfl
  · rfl
  · rfl

@[simp] theorem reportWord_ltu (s : State) : s.reportWord.ltu = s.ltu := by
  have offer (u : State) : (if u.ixs.state = .resumeWait ∧ u.ixs.resumeStep = .awaitWord ∧ u.ssv.drive
      ∧ u.atStopSetpoint then u.offerResume else u).ltu = u.ltu := ltu_ite rfl rfl
  have pass (u : State) : (if u.ssv.homeCheck ∧ u.inputs.home ∧ u.inPosition then u.passHomeCheck else u).ltu = u.ltu :=
    ltu_ite (moveShuttle_ltu _ _) rfl
  exact (pass _).trans ((offer _).trans (ltu_ite (lowerPallet_ltu s) rfl))

@[simp] theorem sendWord_ltu (s : State) : s.sendWord.ltu = s.ltu := ltu_ite (raise_ltu _ _) rfl

@[simp] theorem startWord_ltu (s : State) : s.startWord.ltu = s.ltu := (reportWord_ltu _).trans (sendWord_ltu s)

@[simp] theorem failHoming_ltu (s : State) : s.failHoming.ltu = s.ltu := moveShuttle_ltu _ _

@[simp] theorem homingRunEnded_ltu (s : State) : s.homingRunEnded.ltu = s.ltu := by
  unfold State.homingRunEnded
  split
  · rfl
  · exact failHoming_ltu s
  · rfl

@[simp] theorem repositionCompleted_ltu (s : State) : s.repositionCompleted.ltu = s.ltu := by
  unfold State.repositionCompleted
  dsimp only
  split
  · exact moveShuttle_ltu _ _
  · exact ltu_ite (moveShuttle_ltu _ _) (moveShuttle_ltu _ _)
  · exact failHoming_ltu _
  · rfl
  · rfl
  · exact ltu_ite ((raise_ltu _ _).trans (failHoming_ltu _)) rfl
  · rfl

@[simp] theorem localCompleted_ltu (s : State) : s.localCompleted.ltu = s.ltu := by
  unfold State.localCompleted
  split
  · rfl
  · exact repositionCompleted_ltu s
  · rfl

@[simp] theorem periodOutcome_ltu (s : State) (o : PeriodOutcome) : (s.periodOutcome o).ltu = s.ltu := by
  unfold State.periodOutcome
  split
  · rfl
  · exact ltu_ite (commonCompleted_ltu s) (localCompleted_ltu s)
  · exact ltu_ite (homingRunEnded_ltu s) (rampEnded_ltu s)

@[simp] theorem wordAtPeriod_ltu (s : State) : s.wordAtPeriod.ltu = s.ltu := ltu_ite (sendWord_ltu s) rfl

@[simp] theorem reportPosition_ltu (s : State) : s.reportPosition.ltu = s.ltu := ltu_ite rfl rfl

@[simp] theorem outcomeAfterWord_ltu (s : State) (o : PeriodOutcome) : (s.outcomeAfterWord o).ltu = s.ltu :=
  ltu_ite rfl (periodOutcome_ltu s o)

@[simp] theorem endPeriod_ltu (s : State) : s.endPeriod.ltu = s.ltu :=
  ltu_ite (ltu_ite (by simp) (by simp)) rfl

@[simp] theorem reachOrigin_ltu (s : State) : s.reachOrigin.ltu = s.ltu := by
  have move (u : State) : (if u.pgn.kind = .forward then u.moveRecord else u).ltu = u.ltu := ltu_ite (moveRecord_ltu u) rfl
  exact ltu_ite (ltu_ite ((commonCompleted_ltu _).trans (move _)) (move _)) rfl

@[simp] theorem startLocal_ltu (s : State) : s.startLocal.ltu = s.ltu :=
  ltu_ite (ltu_ite (localCompleted_ltu _) rfl) rfl

@[simp] theorem marked_ltu (s : State) : s.marked.ltu = s.ltu := by
  unfold State.marked
  dsimp only
  split
  · simp
  · rfl

@[simp] theorem yieldTo_ltu (s : State) (f : Frame) : (s.yieldTo f).ltu = s.ltu := ltu_ite rfl rfl

@[simp] theorem fixtureAtJoin_ltu (s : State) : s.fixtureAtJoin.ltu = s.ltu := by
  unfold State.fixtureAtJoin
  split
  · dsimp only
    split <;> rfl
  · exact keepOpen_ltu _

@[simp] theorem raiseInputs_ltu (s : State) : s.raiseInputs.ltu = s.ltu := by
  have fault : (if s.inputs.driveFault then s.raise .driveFault else s).ltu = s.ltu := ltu_ite (raise_ltu s _) rfl
  exact ltu_ite ((raise_ltu _ _).trans fault) fault

@[simp] theorem takeRecord_ltu (s : State) (r : PalletRecord) : (s.takeRecord r).ltu = s.ltu :=
  (close_ltu _).trans (seatFixture_ltu _)

@[simp] theorem resumeOffer_ltu (s : State) : s.resumeOffer.ltu = s.ltu := ltu_ite rfl (moveShuttle_ltu _ _)

@[simp] theorem resumeDrive_ltu (s : State) : s.resumeDrive.ltu = s.ltu := ltu_ite rfl rfl

@[simp] theorem giveUpHoming_ltu (s : State) : s.giveUpHoming.ltu = s.ltu := by
  unfold State.giveUpHoming
  split
  · rfl
  · rfl
  · rfl
  · rfl
  · exact failHoming_ltu s
  · rfl

@[simp] theorem startHoming_ltu (s : State) : s.startHoming.ltu = s.ltu := ltu_ite rfl rfl

@[simp] theorem setSettleMark_ltu (s : State) : s.setSettleMark.ltu = s.ltu := ltu_ite (fixtureReported_ltu _) rfl

@[simp] theorem losePressure_ltu (s : State) : s.losePressure.ltu = s.ltu := by
  have lost (u : State) : (if s.fxs.state = .secured ∧ s.ixs.state.losesPressure then u.raise .clampPressureLost
      else u).ltu = u.ltu := ltu_ite (raise_ltu u _) rfl
  exact ltu_ite ((fixtureReported_ltu _).trans (lost _)) (lost _)

@[simp] theorem loseLocators_ltu (s : State) (a b : Bool) : (s.loseLocators a b).ltu = s.ltu :=
  ltu_ite (raise_ltu _ _) (ltu_ite (fixtureReported_ltu _) rfl)

/-! The frames of members. -/

theorem clearAtForming_ltu (s : State) : s.clearAtForming.ltu = s.ltu := by
  have ready (u : State) : (if u.ixs.state = .ready then u.queueFrame u.readyPayload else u).ltu = u.ltu := ltu_ite rfl rfl
  exact (ready _).trans (ltu_ite rfl rfl)

theorem deliverJoin_ltu (s : State) (d : Delivery) (f : JoinFields) : (s.deliverJoin d f).ltu = s.ltu := by
  have answer (u : State) : u.answerJoin.ltu = u.ltu := ltu_ite rfl rfl
  have adopt (u : State) : (u.adoptIndex f.index).ltu = u.ltu := ltu_ite (ltu_ite (s := u) rfl rfl) rfl
  exact ltu_ite (((endUpstreamWait_ltu _ _).trans (answer _)).trans (clearAtForming_ltu _)) (adopt _)

theorem deliverReady_ltu (s : State) (d : Delivery) (f : ReadyFields) : (s.deliverReady d f).ltu = s.ltu :=
  ltu_ite ((checkReadyBarrier_ltu _).trans (updateImage_ltu _ _ _)) rfl

theorem deliverLowered_ltu (s : State) (d : Delivery) (i : IndexNo) : (s.deliverLowered d i).ltu = s.ltu :=
  ltu_ite (endUpstreamWait_ltu _ _) rfl

theorem deliverResume_ltu (s : State) (d : Delivery) (x : LineTime) (i : IndexNo) (sp : Nat) :
    (s.deliverResume d x i sp).ltu = s.ltu :=
  ltu_ite ((checkResumeBarrier_ltu _ _).trans (ltu_ite rfl (raise_ltu _ _))) rfl

theorem deliverHandover_ltu (s : State) (d : Delivery) (i : IndexNo) (c : Option PalletRecord) :
    (s.deliverHandover d i c).ltu = s.ltu := by
  have own : (s.ownHandoverObserved i).ltu = s.ltu := by
    unfold State.ownHandoverObserved
    split
    · exact ltu_ite (tryLowered_ltu _) rfl
    · rfl
  exact ltu_ite own (ltu_ite rfl rfl)

/-! What a step can do to the Line Time Unit. -/

/-- R20 to R34: line time goes on, a sample is added, a beat instant evaluates the interval, JOIN starts the beat, and reset. -/
inductive LtuMove (l : Ltu) : Ltu → Prop
  | keeps : LtuMove l l
  | passes (x : LineTime) : LtuMove l { l with lineTime := x }
  | samples (x : Sample) : LtuMove l { l with samples := addSample x l.samples }
  | instant (x b : LineTime) : LtuMove l
      { lineTime := x, nextBeat := some b, samples := []
        coarseRun := (runsAfter l.coarseRun l.fineRun l.samples).1
        fineRun := (runsAfter l.coarseRun l.fineRun l.samples).2
        step := stepOfRuns (runsAfter l.coarseRun l.fineRun l.samples).1 (runsAfter l.coarseRun l.fineRun l.samples).2 }
  | forms (b : LineTime) : LtuMove l { l with nextBeat := some b, samples := [] }
  | resets : LtuMove l Ltu.reset

/-- Every state that an answer of `s` gives has moved the Line Time Unit so. -/
def Moves (s : State) (a : Answer) : Prop := ∀ t : State, a = .next t → LtuMove s.ltu t.ltu

theorem LtuMove.of_eq (h : t.ltu = s.ltu) : LtuMove s.ltu t.ltu := h ▸ .keeps

theorem Moves.next (h : LtuMove s.ltu t.ltu) : Moves s (.next t) := fun _ e => by cases e; exact h

/-- An answer that leaves the Line Time Unit. -/
theorem Moves.kept (h : t.ltu = s.ltu := by rfl) : Moves s (.next t) := .next (.of_eq h)

/-- An answer of the Cell Port to a request that leaves the Line Time Unit. -/
theorem Moves.respond (h : t.ltu = s.ltu) (n : Nat) (k : Byte) (x : Status) (f : List Byte) :
    Moves s (.next (t.respond n k x f)) := .kept ((t.respond_ltu n k x f).trans h)

theorem Moves.refuse (s : State) (n : Nat) (k : Byte) (x : Status) : Moves s (.next (s.refuse n k x)) :=
  .kept (s.refuse_ltu n k x)

theorem Moves.ite {b : Prop} [Decidable b] {x y : Answer} (h : Moves s x) (k : Moves s y) : Moves s (if b then x else y) := by
  split
  · exact h
  · exact k

/-- R24: of all frames only BEAT of another member moves the Line Time Unit. -/
theorem deliver_move (s : State) (d : Delivery) (f : Frame) : LtuMove s.ltu (s.deliver d f).ltu := by
  unfold State.deliver
  split
  · exact .of_eq (ltu_ite (takeStop_ltu _ _) rfl)
  · exact .of_eq (ltu_ite (checkLiftedBarrier_ltu _ _) rfl)
  · exact .of_eq (deliverLowered_ltu s d _)
  · exact .of_eq (deliverResume_ltu s d _ _ _)
  · exact .of_eq (deliverReady_ltu s d _)
  · exact .of_eq (s := s) rfl
  · exact .of_eq (deliverHandover_ltu s d _ _)
  · exact .of_eq (ltu_ite (raise_ltu _ _) rfl)
  · unfold State.deliverBeat
    split
    · exact .of_eq (s := s) rfl
    · exact .samples _
  · exact .of_eq (deliverJoin_ltu s d _)

theorem deliver_move_of (h : t.ltu = s.ltu) (d : Delivery) (f : Frame) : LtuMove s.ltu (t.deliver d f).ltu :=
  h ▸ deliver_move t d f

theorem observe_move (s : State) (f : Frame) : LtuMove s.ltu (s.observe f).ltu := by
  rcases observe_cases s f with ⟨-, e⟩ | ⟨-, -, e⟩ | ⟨-, -, e⟩ <;> rw [e]
  · exact .keeps
  · exact .of_eq (by simp)
  · rcases take_cases (s.yieldTo f) f with ⟨-, e⟩ | ⟨-, -, e⟩ | ⟨-, -, e⟩ <;> rw [← yieldTo_ltu s f, e]
    · exact .keeps
    · rw [State.takeForeign, close_ltu]
      exact .keeps
    · rw [close_ltu]
      exact deliver_move_of (by simp) _ _

theorem observed_moves (s : State) (f : Frame) : Moves s (.next (s.observe f)) := .next (observe_move s f)

theorem execSetItem_moves (s : State) (w : ItemWrite) : Moves s (execSetItem w s) := by
  unfold Machine.execSetItem
  dsimp only
  refine .ite ?_ (.refuse s _ _ _)
  split
  · split
    · exact .respond rfl _ _ _ _
    · exact .refuse s _ _ _
  · split
    · exact .respond rfl _ _ _ _
    · exact .refuse s _ _ _

theorem execJoin_moves (s : State) : Moves s (execJoin s) := by
  unfold Machine.execJoin
  refine .ite (.ite (.ite (.next ?_) (.refuse s _ _ _)) (.refuse s _ _ _)) (.refuse s _ _ _)
  have e : (s.takeJoin.respond (requestOctets 0) 2 .done []).ltu = s.formed.ltu := by simp [State.takeJoin]
  rw [e]
  exact .forms _

theorem execLoadEntry_moves (s : State) (os : List Byte) : Moves s (execLoadEntry os s) := by
  unfold Machine.execLoadEntry
  split
  · exact .refuse s _ _ _
  · exact .ite (.refuse s _ _ _) (.ite (.refuse s _ _ _) (.respond (takeRecord_ltu s _) _ _ _ _))

theorem execLoadFixture_moves (s : State) (os : List Byte) : Moves s (execLoadFixture os s) := by
  unfold Machine.execLoadFixture
  split
  · exact .refuse s _ _ _
  · exact .ite (.refuse s _ _ _) (.ite (.refuse s _ _ _) (.respond (takeRecord_ltu s _) _ _ _ _))

theorem execGetIncoming_moves (s : State) : Moves s (execGetIncoming s) := by
  unfold Machine.execGetIncoming
  refine .ite (.refuse s _ _ _) ?_
  split <;> exact .respond rfl _ _ _ _

theorem execGetPeer_moves (s : State) (b : Byte) : Moves s (execGetPeer b s) := by
  unfold Machine.execGetPeer
  refine .ite (.refuse s _ _ _) (.ite (.refuse s _ _ _) ?_)
  split
  · exact .respond rfl _ _ _ _
  · exact .refuse s _ _ _

theorem execClearCause_moves (s : State) (b : Byte) : Moves s (execClearCause b s) := by
  unfold Machine.execClearCause
  split
  · exact .refuse s _ _ _
  · exact .ite (.refuse s _ _ _) (.ite (.refuse s _ _ _)
      (.respond ((close_ltu _).trans (ltu_ite (unpend_ltu s _) rfl)) _ _ _ _))

theorem execReportResult_moves (s : State) (b : Byte) : Moves s (execReportResult b s) := by
  unfold Machine.execReportResult
  split
  · exact .refuse s _ _ _
  · exact .ite (.respond rfl _ _ _ _) (.refuse s _ _ _)

theorem execTakeExitRecord_moves (s : State) : Moves s (execTakeExitRecord s) := by
  unfold Machine.execTakeExitRecord
  refine .ite (.refuse s _ _ _) ?_
  split
  · exact .respond (by simp) _ _ _ _
  · exact .respond rfl _ _ _ _

theorem execResume_moves (s : State) : Moves s (execResume s) := by
  unfold Machine.execResume
  exact .ite (.ite (.refuse s _ _ _) (.respond (by simp) _ _ _ _)) (.refuse s _ _ _)

theorem execDeclareEmpty_moves (s : State) : Moves s (execDeclareEmpty s) := by
  unfold Machine.execDeclareEmpty
  exact .ite (.respond (by simp [State.declareEmpty]) _ _ _ _) (.refuse s _ _ _)

theorem execSetAttnMask_moves (s : State) (m : Byte) : Moves s (execSetAttnMask m s) := by
  unfold Machine.execSetAttnMask
  exact .ite (.respond rfl _ _ _ _) (.refuse s _ _ _)

theorem execGetImage_moves (s : State) : Moves s (execGetImage s) := by
  unfold Machine.execGetImage
  exact .ite (.refuse s _ _ _) (.respond rfl _ _ _ _)

theorem execReset_moves (s : State) (c : ResetCause) (b : Bool) : Moves s (execReset c b s) :=
  .ite (.ite (.next .resets) .kept) (.next .resets)

theorem execFrameStart_moves (s : State) (own : Bool) : Moves s (execFrameStart own s) :=
  .ite (.ite (.ite .kept .kept) .kept) .kept

/-- R22, R27 to R29. -/
theorem execBeatInstant_moves (s : State) : Moves s (execBeatInstant s) := by
  unfold Machine.execBeatInstant
  split
  · refine .next ?_
    rename_i b _
    have e : (s.beat b).ltu = (s.takeBeat b).ltu := ltu_ite (raise_ltu _ _) rfl
    rw [close_ltu, e]
    exact .instant _ _
  · exact .kept

/-- R20 to R34: what a command can do to the Line Time Unit. -/
theorem exec_moves (s : State) (i : Instr) : Moves s (exec i s) := by
  cases i with
  | setItem w => exact execSetItem_moves s w
  | join => exact execJoin_moves s
  | getStatus => exact .respond rfl _ _ _ _
  | getCauses => exact .respond rfl _ _ _ _
  | clearCause c => exact execClearCause_moves s c
  | setAttnMask m => exact execSetAttnMask_moves s m
  | reportResult c => exact execReportResult_moves s c
  | loadEntry os => exact execLoadEntry_moves s os
  | loadFixture os => exact execLoadFixture_moves s os
  | declareEmpty => exact execDeclareEmpty_moves s
  | getFixtureRecord => exact .respond rfl _ _ _ _
  | getIncoming => exact execGetIncoming_moves s
  | takeExitRecord => exact execTakeExitRecord_moves s
  | getImage => exact execGetImage_moves s
  | getPeer n => exact execGetPeer_moves s n
  | resume => exact execResume_moves s
  | malformedRequest k => exact .refuse s _ _ _
  | noneTransaction n => exact .kept
  | reset c b => exact execReset_moves s c b
  | linkIdleSeen => exact .kept
  | frameStart own => exact execFrameStart_moves s own
  | arbitrationLost => exact .kept
  | frameMarked => exact .ite (.kept (marked_ltu s)) .kept
  | foreignFrameObserved f => exact observed_moves s _
  | beatObserved x p => exact observed_moves s _
  | joinObserved x p => exact observed_moves s _
  | readyObserved x p => exact observed_moves s _
  | liftedObserved x p => exact observed_moves s _
  | loweredObserved x p => exact observed_moves s _
  | resumeObserved x p q => exact observed_moves s _
  | stopObserved x p q r => exact observed_moves s _
  | holdObserved x p q => exact observed_moves s _
  | positionObserved x p => exact observed_moves s _
  | handoverObserved x p q => exact observed_moves s _
  | foreignFrameTimerExpiry => exact .ite (.kept (close_ltu _)) .kept
  | beatInstant => exact execBeatInstant_moves s
  | memberSilent n => exact .ite (.kept (close_ltu _)) .kept
  | joinRepetition => exact .ite .kept .kept
  | readyOffer => exact .ite (.kept (close_ltu _)) .kept
  | formingExit => exact .ite (.kept (close_ltu _)) .kept
  | homingStart => exact .ite (.kept (startHoming_ltu s)) .kept
  | liftBarrierTimerExpiry => exact .ite (.kept (by simp)) .kept
  | loweringTimerExpiry => exact .ite (.kept (by simp)) .kept
  | upstreamTimerExpiry => exact .ite (.kept (by simp)) .kept
  | homingTimerExpiry => exact .ite (.kept (by simp)) .kept
  | homeCheckTimerExpiry => exact .ite (.kept (by simp)) .kept
  | releaseStepTimerExpiry => exact .ite (.kept (by simp)) .kept
  | locateTimerExpiry => exact .ite (.kept (by simp)) .kept
  | clampTimerExpiry => exact .ite (.kept (by simp)) .kept
  | settleMarkSet => exact .ite (.kept (by simp)) .kept
  | profileOrigin => exact .ite (.kept (by simp)) .kept
  | localProfileStart => exact .ite (.kept (by simp)) .kept
  | periodEnd => exact .ite (.kept (by simp)) .kept
  | setpointWordRepeat => exact .ite (.kept (by simp)) .kept
  | setpointWordEnd => exact .ite (.kept (by simp)) .kept
  | machClearDrop => exact .ite (.ite (.kept (by simp)) .kept) .kept
  | emergencyOn => exact .ite .kept (.kept (by simp))
  | driveFaultOn => exact .ite .kept (.kept (by simp))
  | clampPressureOff => exact .ite (.kept (by simp)) .kept
  | clampPressureMade => exact .kept
  | locatorsEngaged a b => exact .kept (ltu_ite rfl rfl)
  | locatorOff a b => exact .ite (.kept (by simp)) .kept
  | palletPresentChange b => exact .kept
  | plateCodeChange c => exact .kept
  | liftUpSensorOn => exact .ite .kept (.ite (.kept (by simp)) .kept)
  | liftDownSensorOn => exact .ite .kept (.ite (.kept (by simp)) .kept)
  | liftSensorOff up => exact .ite .kept (.ite .kept .kept)
  | homeSensorChange on => exact .ite .kept (.ite .kept .kept)
  | encoderEdge d => exact .kept
  | machClearOn => exact .kept
  | emergencyOff => exact .kept
  | driveFaultOff => exact .kept
  | homeCapture b => exact .kept

theorem runOn_move (s : State) : LtuMove s.ltu s.runOn.ltu := by
  unfold State.runOn
  split
  · exact .keeps
  · exact .passes _

/-- R20 to R34: what a step can do to the Line Time Unit. -/
theorem step_moves (s : State) : Moves s (step s) := by
  unfold Machine.step
  split
  · exact exec_moves _ _
  · exact .next (runOn_move s)

/-! The laws of the Line Time Unit (R24, R28, R29). -/

/-- R28: a run stops at 255. -/
theorem increaseRun_le (n : Nat) : increaseRun n ≤ 255 := Nat.min_le_right _ _

theorem increaseRun_mono {m n : Nat} (h : m ≤ n) : increaseRun m ≤ increaseRun n := by
  unfold increaseRun
  omega

/-- R28, R29: after an interval the fine run is no longer than the coarse run, and both are within 255. -/
theorem runsAfter_bounds {c f : Nat} (h : f ≤ c) (l : List Sample) :
    (runsAfter c f l).2 ≤ (runsAfter c f l).1 ∧ (runsAfter c f l).1 ≤ 255 := by
  unfold runsAfter
  split
  · exact ⟨Nat.le_refl 0, Nat.zero_le _⟩
  · split
    · exact ⟨increaseRun_mono h, increaseRun_le c⟩
    · split
      · exact ⟨Nat.zero_le _, increaseRun_le c⟩
      · exact ⟨Nat.le_refl 0, Nat.zero_le _⟩

/-- R24: the samples of one member that are kept are its earliest. -/
theorem keepFirst_same (m : Nat) (l : List Sample) :
    (keepFirst m l).filter (fun x => x.member == m) = (l.filter fun x => x.member == m).take 1 := by
  induction l with
  | nil => rfl
  | cons a l ih =>
    unfold keepFirst
    by_cases e : a.member = m
    · simp [e, List.filter_filter]
    · simp [e, ih]

/-- R24: the samples of the other members are left. -/
theorem keepFirst_other {m : Nat} {p : Sample → Bool} (h : ∀ x : Sample, x.member = m → p x = false) (l : List Sample) :
    (keepFirst m l).filter p = l.filter p := by
  induction l with
  | nil => rfl
  | cons a l ih =>
    unfold keepFirst
    by_cases e : a.member = m
    · have same : (l.filter fun x => x.member != m).filter p = l.filter p := by
        rw [List.filter_filter]
        refine List.filter_congr fun x _ => ?_
        by_cases k : x.member = m
        · simp [h x k]
        · simp [k]
      rw [if_pos e, List.filter_cons, List.filter_cons, same]
    · rw [if_neg e, List.filter_cons, List.filter_cons, ih]

/-- R24: the samples of the member that a new one comes from: a third replaces the later of two. -/
theorem addSample_same (x : Sample) (l : List Sample) :
    (addSample x l).filter (fun y => y.member == x.member) =
      (if 2 ≤ (l.filter fun y => y.member == x.member).length then (l.filter fun y => y.member == x.member).take 1
        else l.filter fun y => y.member == x.member) ++ [x] := by
  unfold addSample
  split
  · rw [List.filter_append, keepFirst_same]; simp
  · rw [List.filter_append]; simp

theorem addSample_other {x : Sample} {p : Sample → Bool} (h : ∀ y : Sample, y.member = x.member → p y = false)
    (l : List Sample) : (addSample x l).filter p = l.filter p := by
  have new : [x].filter p = [] := by simp [h x rfl]
  unfold addSample
  split
  · rw [List.filter_append, keepFirst_other h, new, List.append_nil]
  · rw [List.filter_append, new, List.append_nil]

/-- R24, R28, R29: the laws of the Line Time Unit. -/
structure LtuLegal (l : Ltu) : Prop where
  fine : l.fineRun ≤ l.coarseRun
  coarse : l.coarseRun ≤ 255
  step : l.step = stepOfRuns l.coarseRun l.fineRun
  samples : ∀ m : Nat, (l.samples.filter fun x => x.member == m).length ≤ 2

/-- R24: two samples of one member stay two. -/
theorem addSample_length {l : List Sample} (h : ∀ m : Nat, (l.filter fun y => y.member == m).length ≤ 2) (x : Sample)
    (m : Nat) :
    ((addSample x l).filter fun y => y.member == m).length ≤ 2 := by
  by_cases e : x.member = m
  · subst e
    rw [addSample_same]
    split
    · simp
    · simp only [List.length_append, List.length_singleton]; omega
  · rw [addSample_other fun y k => by simp [k, e]]
    exact h m

theorem LtuMove.legal {l k : Ltu} (h : LtuMove l k) (g : LtuLegal l) : LtuLegal k := by
  cases h with
  | keeps => exact g
  | passes x => exact ⟨g.fine, g.coarse, g.step, g.samples⟩
  | samples x => exact ⟨g.fine, g.coarse, g.step, addSample_length g.samples x⟩
  | instant x b =>
    obtain ⟨fine, coarse⟩ := runsAfter_bounds g.fine l.samples
    exact ⟨fine, coarse, rfl, fun _ => Nat.zero_le _⟩
  | forms b => exact ⟨g.fine, g.coarse, g.step, fun _ => Nat.zero_le _⟩
  | resets => exact ⟨Nat.le_refl 0, Nat.zero_le _, rfl, fun _ => Nat.zero_le _⟩

theorem ltuLegal_iff : LtuLegal s.ltu ↔ StepFromRuns s ∧ SamplesBounded s :=
  ⟨fun h => ⟨⟨h.fine, h.coarse, h.step⟩, h.samples⟩, fun ⟨⟨a, b, c⟩, d⟩ => ⟨a, b, c, d⟩⟩

/-- Settles O55: what a step can do to the Line Time Unit (`step_moves`) keeps its laws. -/
theorem lineTimeKept : Obligations.LineTimeKept :=
  fun s t inv e => ltuLegal_iff.1 ((step_moves s t e).legal (ltuLegal_iff.2 inv))

end Sys2Proof.StepTime
end

section
/-! BEAT and the beat instant: samples, the correction, the runs, the next boundary (R20 to R31). -/

namespace Sys2Proof.StepTime

open Sys2Proof.Machine Sys2Proof.Safety Sys2Proof.Claims

/-! The offset samples (R24). -/

/-- Settles O24: BEAT is delivered to the Line Time Unit, where `addSample` keeps two samples of a member. -/
theorem beatGivesSample : Obligations.BeatGivesSample := by
  intro s h st m own clock arrives a x mine
  have run : exec (.beatObserved h st) s = .next ((a.deliver ⟨m, own, clock⟩ ⟨h, .beat st⟩).close) :=
    congrArg Host.Outcome.next (observe_arrives arrives)
  refine ⟨_, run, fun e => ?_, fun e => ?_⟩ <;> subst e
  · exact close_follows _
  · have ltu : (a.deliver ⟨m, false, clock⟩ ⟨h, .beat st⟩).close.ltu
        = { s.ltu with samples := addSample ⟨m, x⟩ s.ltu.samples } := close_ltu _
    rw [ltu]
    refine ⟨close_follows _, addSample_other (fun y k => by simp [k]) _, ?_⟩
    have same := addSample_same ⟨m, x⟩ s.ltu.samples
    refine same.trans ?_
    change (if 2 ≤ mine.length then mine.take 1 else mine) ++ [⟨m, x⟩] = _
    by_cases two : 2 ≤ mine.length
    · rw [if_pos two, if_neg (Nat.not_lt.2 two), List.append_nil]
    · rw [if_neg two, if_pos (Nat.not_le.1 two), List.take_append_drop]

/-! The beat instant (R22). -/

/-- R22: the Line Time Unit at the end of a beat instant is the one that its steps give. -/
theorem beat_ltu (s : State) (b : LineTime) : (s.beat b).close.ltu = (s.takeBeat b).ltu :=
  (close_ltu _).trans (ltu_ite (raise_ltu _ _) rfl)

theorem exec_beatInstant {s : State} {b : LineTime} (h : s.ltu.nextBeat = some b) :
    exec .beatInstant s = .next (s.beat b).close := by
  change execBeatInstant s = _
  rw [execBeatInstant, h]

/-- R25. -/
theorem correctionOf_eq (l : List Sample) : correctionOf l = Correction l := by
  cases l <;> rfl

theorem inMotion_iff (st : SeqState) : st.inMotion = true ↔ st = .moving ∨ st = .stopping := by
  cases st <;> simp [SeqState.inMotion]

/-- R26, Table 2-2: the conditions of the clamp. -/
theorem clamps_iff (s : State) : (s.ltu.step != .none || s.ixs.state.inMotion) = true ↔ Clamps s := by
  rw [Bool.or_eq_true, inMotion_iff, Clamps]
  cases s.ltu.step <;> simp

/-- R26: the correction that steps line time at a beat instant. -/
def Applied (s : State) : Int := appliedCorrection s.ltu.step s.ixs.state.inMotion (correctionOf s.ltu.samples)

theorem applied_clamped {s : State} (h : Clamps s) : Applied s = max (-25) (min 25 (Correction s.ltu.samples)) := by
  rw [Applied, appliedCorrection, if_pos ((clamps_iff s).2 h), correctionOf_eq]
  rfl

theorem applied_unclamped {s : State} (h : ¬Clamps s) : Applied s = Correction s.ltu.samples := by
  rw [Applied, appliedCorrection, if_neg (mt (clamps_iff s).1 h), correctionOf_eq]

/-- Settles O36: by `applied_clamped` and `applied_unclamped`. -/
theorem correctionClamped : Obligations.CorrectionClamped := by
  intro s b h c
  refine ⟨_, Applied s, exec_beatInstant h, by rw [beat_ltu]; rfl, fun k => ?_, applied_unclamped⟩
  have clamped : Applied s = max (-25) (min 25 c) := applied_clamped k
  refine ⟨fun _ => ?_, fun _ => ?_, fun _ _ => ?_⟩ <;> omega

/-! The runs (R28). -/

/-- Table 2-3: all samples lie within a window. -/
theorem all_within_iff (w : Int) (l : List Sample) :
    l.all (withinWindow w) = true ↔ ∀ x ∈ l, -w ≤ x.offset ∧ x.offset ≤ w := by
  simp [withinWindow, List.all_eq_true]

/-- Table 2-3: some sample lies outside a window. -/
theorem not_all_within {w : Int} {l : List Sample} (h : ∃ x ∈ l, ¬(-w ≤ x.offset ∧ x.offset ≤ w)) :
    ¬l.all (withinWindow w) = true := fun k => by
  obtain ⟨x, i, out⟩ := h
  exact out ((all_within_iff w l).1 k x i)

/-- Table 2-3: every sample within the fine window. -/
theorem runsAfter_fine {c f : Nat} {l : List Sample} (filled : l ≠ []) (all : ∀ x ∈ l, -25 ≤ x.offset ∧ x.offset ≤ 25) :
    runsAfter c f l = (min (c + 1) 255, min (f + 1) 255) := by
  have fine : l.all (withinWindow Config.fineWindow) = true := (all_within_iff _ l).2 all
  rw [runsAfter, if_neg (mt List.isEmpty_iff.1 filled), if_pos fine]
  rfl

/-- Table 2-3: every sample within the coarse window, and one outside the fine window. -/
theorem runsAfter_coarse {c f : Nat} {l : List Sample} (filled : l ≠ []) (all : ∀ x ∈ l, -250 ≤ x.offset ∧ x.offset ≤ 250)
    (out : ∃ x ∈ l, ¬(-25 ≤ x.offset ∧ x.offset ≤ 25)) : runsAfter c f l = (min (c + 1) 255, 0) := by
  have fine : ¬l.all (withinWindow Config.fineWindow) = true := not_all_within out
  have coarse : l.all (withinWindow Config.coarseWindow) = true := (all_within_iff _ l).2 all
  rw [runsAfter, if_neg (mt List.isEmpty_iff.1 filled), if_neg fine, if_pos coarse]
  rfl

/-- Table 2-3: a sample outside the coarse window. -/
theorem runsAfter_out {c f : Nat} {l : List Sample} (out : ∃ x ∈ l, ¬(-250 ≤ x.offset ∧ x.offset ≤ 250)) :
    runsAfter c f l = (0, 0) := by
  obtain ⟨x, i, far⟩ := out
  have fine : ¬l.all (withinWindow Config.fineWindow) = true :=
    not_all_within ⟨x, i, fun near => far (by simp only [Config.fineWindow] at near; omega)⟩
  have coarse : ¬l.all (withinWindow Config.coarseWindow) = true := not_all_within ⟨x, i, far⟩
  rw [runsAfter, if_neg (mt List.isEmpty_iff.1 (List.ne_nil_of_mem i)), if_neg fine, if_neg coarse]

/-- Settles O37: `runsAfter` row by row. -/
theorem runsUpdated : Obligations.RunsUpdated := by
  intro s b h within l
  refine ⟨_, exec_beatInstant h, ?_⟩
  rw [beat_ltu]
  have coarse : (s.takeBeat b).ltu.coarseRun = (runsAfter s.ltu.coarseRun s.ltu.fineRun l).1 := rfl
  have fine : (s.takeBeat b).ltu.fineRun = (runsAfter s.ltu.coarseRun s.ltu.fineRun l).2 := rfl
  rw [coarse, fine]
  refine ⟨fun filled all => ?_, fun filled all out => ?_, fun out => ?_, fun empty => ?_⟩
  · rw [runsAfter_fine filled all]
    exact ⟨rfl, rfl⟩
  · rw [runsAfter_coarse filled all out]
    exact ⟨rfl, rfl⟩
  · rw [runsAfter_out out]
    exact ⟨rfl, rfl⟩
  · rw [empty]
    exact ⟨rfl, rfl⟩

/-! The next boundary (R21, R22). -/

theorem firstLater_eq (t : LineTime) : firstLater t = FirstLater t := rfl

/-- R21: the first later boundary is a boundary. -/
theorem firstLater_boundary (t : LineTime) : (FirstLater t).toNat % 50000 = 0 ∧ (FirstLater t).toNat ≤ 4294950000 := by
  unfold FirstLater
  split
  · have value : (BitVec.ofNat 32 ((t.toNat / 50000 + 1) * 50000)).toNat = (t.toNat / 50000 + 1) * 50000 := by
      rw [BitVec.toNat_ofNat]
      omega
    rw [value]
    omega
  · decide

/-- R21: the first later boundary is later, by the signed difference of line times. -/
theorem firstLater_later (t : LineTime) : 0 < (FirstLater t - t).toInt := by
  have lt := t.isLt
  unfold FirstLater
  split
  · rw [BitVec.toInt_eq_toNat_cond, BitVec.toNat_sub, BitVec.toNat_ofNat]
    split <;> omega
  · rw [BitVec.toInt_eq_toNat_cond, BitVec.toNat_sub, show (0 : LineTime).toNat = 0 from rfl]
    split <;> omega

/-- R22: the next boundary is the first later than line time, or than the boundary just reached. -/
theorem nextBoundary_eq (b t : LineTime) :
    nextBoundary b t = if 0 < (FirstLater t - b).toInt then FirstLater t else FirstLater b := by
  unfold nextBoundary
  rw [firstLater_eq, firstLater_eq]
  by_cases k : 0 < (FirstLater t - b).toInt
  · rw [if_pos k, if_neg (Int.not_le.2 k)]
  · rw [if_neg k, if_pos (Int.not_lt.1 k)]

theorem nextBoundary_boundary (b t : LineTime) :
    (nextBoundary b t).toNat % 50000 = 0 ∧ (nextBoundary b t).toNat ≤ 4294950000 := by
  rw [nextBoundary_eq]
  split
  · exact firstLater_boundary t
  · exact firstLater_boundary b

theorem nextBoundary_later (b t : LineTime) : 0 < (nextBoundary b t - b).toInt := by
  rw [nextBoundary_eq]
  split
  · assumption
  · exact firstLater_later b

/-! The loss of step (R31). -/

/-- R31: the step falls to NONE in MOVING or STOPPING. -/
def StepLost (s : State) (after : StepState) : Prop :=
  s.ltu.step ≠ .none ∧ after = .none ∧ (s.ixs.state = .moving ∨ s.ixs.state = .stopping)

theorem stepLost_iff (s : State) (after : StepState) :
    (fallsToNone s.ltu.step after = true ∧ s.ixs.state.inMotion = true) ↔ StepLost s after := by
  rw [inMotion_iff, StepLost, fallsToNone, Bool.and_eq_true, bne_iff_ne, beq_iff_eq, and_assoc]

/-- R22, R31: a beat instant at which the step falls in motion raises STEP_LOST_IN_MOTION. -/
theorem beat_lost {s : State} {b : LineTime} (h : StepLost s (s.takeBeat b).ltu.step) :
    s.beat b = (s.takeBeat b).raise .stepLostInMotion := if_pos ((stepLost_iff s _).2 h)

theorem beat_held {s : State} {b : LineTime} (h : ¬StepLost s (s.takeBeat b).ltu.step) :
    s.beat b = s.takeBeat b := if_neg (mt (stepLost_iff s _).1 h)

/-- What the end of a command can do, a cause left out of account. -/
theorem close_follows_except (s : State) (c : Cause) (h : c.latched = true) : Follows [c] s s.close :=
  close_follows_of (.rfl' s) (.rfl' s) (.rfl' _ _) (fun _ => .rfl' _ s) (by simpa using h)

theorem beat_follows (s : State) (b : LineTime) : Follows [.stepLostInMotion] (s.takeBeat b) (s.beat b).close := by
  by_cases h : StepLost s (s.takeBeat b).ltu.step
  · rw [beat_lost h]
    exact raise_close_follows _ _ rfl
  · rw [beat_held h]
    exact close_follows_except _ _ rfl

theorem beat_pending {s : State} {b : LineTime} (h : StepLost s (s.takeBeat b).ltu.step) (levels : LevelsLegal s) :
    (s.beat b).close.har.isPending .stepLostInMotion = true := by
  rw [beat_lost h]
  have on : s.ixs.state ≠ .offline := by
    rcases h.2.2 with e | e <;> rw [e] <;> decide
  have floor : 6 ≤ s.har.level .stepLostInMotion := (levels.2 .stepLostInMotion).1
  exact raise_close_pending (s.takeBeat b) .stepLostInMotion on (Nat.le_trans (by decide) floor) levels.1 rfl

theorem beat_notRaised {s : State} {b : LineTime} (h : ¬StepLost s (s.takeBeat b).ltu.step) :
    (s.beat b).close.har.isPending .stepLostInMotion = s.har.isPending .stepLostInMotion := by
  rw [beat_held h, (close_same _).pending .stepLostInMotion rfl]
  rfl

/-- Settles O38: what `takeBeat` does, and the cause that `beat` raises. -/
theorem beatInstantTaken : Obligations.BeatInstantTaken := by
  intro s b h levels c
  refine ⟨_, Applied s, nextBoundary b (s.ltu.lineTime + BitVec.ofInt 32 (Applied s)), exec_beatInstant h, ?_⟩
  rw [beat_ltu]
  have boundary := nextBoundary_boundary b (s.ltu.lineTime + BitVec.ofInt 32 (Applied s))
  exact ⟨applied_clamped, applied_unclamped, rfl, rfl, rfl, boundary.1, boundary.2, nextBoundary_later _ _,
    nextBoundary_eq _ _, rfl, beat_follows s b, fun was now moving => beat_pending ⟨was, now, moving⟩ levels,
    fun kept => beat_notRaised kept⟩

end Sys2Proof.StepTime
end

section
/-! The expiries of the timers that raise causes, and a member that falls silent (R33, R49, R58, R60, R61, R90, R108 to R110). -/

namespace Sys2Proof.StepTime

open Sys2Proof.Machine Sys2Proof.Safety Sys2Proof.Claims

/-- An expiry that is taken raises its cause in the state that its timer has left. -/
theorem expiry_raises {i : Instr} {s u : State} {c : Cause} (run : exec i s = .next (u.raise c).close)
    (on : u.ixs.state ≠ .offline) (floor : 1 ≤ u.har.level c) (every : EveryCause u) (l : c.latched = true) :
    ∃ t, exec i s = .next t ∧ Follows [c] u t ∧ t.har.isPending c = true :=
  ⟨_, run, raise_close_follows u c l, raise_close_pending u c on floor every l⟩

theorem level_pos {s : State} (levels : LevelsLegal s) {c : Cause} (floor : 1 ≤ c.floor) : 1 ≤ s.har.level c :=
  floor.trans (levels.2 c).1

/-- Changes that agree on the element of an index. -/
theorem updateAt_congr {α : Type} {f g : α → α} {i : Nat} {l : List α} {a : α} (e : l[i]? = some a) (h : f a = g a) :
    updateAt f i l = updateAt g i l := by
  refine List.ext_getElem? fun j => ?_
  by_cases k : j = i
  · rw [k, updateAt_self, updateAt_self, e, Option.map_some, Option.map_some, h]
  · rw [updateAt_other f k, updateAt_other g k]

/-- R53, R58: the steps of the lowering timer. -/
theorem lowers_of_mem {st : IndexStep} (h : st ∈ [IndexStep.abandonLift, .inPosition, .liftDown]) : st.lowers = true := by
  simp only [List.mem_cons, List.not_mem_nil, or_false] at h
  rcases h with rfl | rfl | rfl <;> rfl

/-- R33: the peer records once a member with a running silence count is taken as silent. -/
theorem fallSilent_eq {s : State} {i us : Nat} {p : Peer} (e : s.peers[i]? = some p) (h : p.silence = some us) :
    s.updatePeer i Peer.fallSilent
      = { s with peers := updateAt (fun q => { q with silence := some (max 150000 us) }) i s.peers } := by
  have same : Peer.fallSilent p = { p with silence := some (max 150000 us) } := by
    rw [Peer.fallSilent, h]
    rfl
  unfold State.updatePeer
  rw [updateAt_congr (g := fun q => { q with silence := some (max 150000 us) }) e same]

/-- R33: PEER_SILENT is present with such a member. -/
theorem fallSilent_condition {s : State} {i us : Nat} {p : Peer} (on : s.ixs.state ≠ .offline) (e : s.peers[i]? = some p)
    (h : p.silence = some us) : (s.updatePeer i Peer.fallSilent).condition .peerSilent = true := by
  rw [SectionLine.condition_iff, fallSilent_eq e h]
  have member : (updateAt (fun q : Peer => { q with silence := some (max 150000 us) }) i s.peers)[i]?
      = some { p with silence := some (max 150000 us) } := by rw [updateAt_self, e]; rfl
  exact ⟨on, _, List.mem_of_getElem? member, _, rfl, Nat.le_max_left _ _⟩

/-- Settles O39: each expiry by `expiry_raises`; a silent member by the condition of PEER_SILENT at the end of the command. -/
theorem expiriesRaiseCauses : Obligations.ExpiriesRaiseCauses := by
  intro s on levels Raises
  have raises {i : Instr} {u : State} (c : Cause) (run : exec i s = .next (u.raise c).close) (state : u.ixs.state = s.ixs.state)
      (har : u.har = s.har) (floor : 1 ≤ c.floor) (l : c.latched = true) : Raises i c u :=
    expiry_raises run (state ▸ on) (har ▸ level_pos levels floor) (har ▸ levels.1 : u.har.causes.length = _) l
  refine ⟨fun run st => ?_, fun run st => ?_, fun run st => ?_, fun run => ?_, fun run st => ?_, fun run st => ?_,
    fun run st => ?_, fun i p us e h => ?_⟩
  · have taken : (s.ixs.liftBarrierTimer.isSome && (s.ixs.state == .releasing || s.ixs.state == .liftWait)) = true := by
      simpa [Option.isSome_iff_ne_none, run] using st
    exact raises _ (if_pos taken) rfl rfl (by decide) rfl
  · have taken : (s.ixs.loweringTimer.isSome && s.ixs.step.lowers) = true := by
      simp [Option.isSome_iff_ne_none, run, lowers_of_mem st]
    exact raises _ (if_pos taken) rfl rfl (by decide) rfl
  · have taken : (s.ixs.upstreamTimer.isSome && s.ixs.step == .upstream) = true := by
      simp [Option.isSome_iff_ne_none, run, st]
    exact raises _ (if_pos taken) rfl rfl (by decide) rfl
  · have taken : s.ssv.homeCheckTimer.isSome = true := Option.isSome_iff_ne_none.2 run
    obtain ⟨t, run, follows, pending⟩ := raises (i := .homeCheckTimerExpiry) .returnFault (if_pos taken) rfl rfl
      (by decide) rfl
    exact ⟨t, run, follows.timers.2.elim id id, follows, pending⟩
  · have taken : (s.fxs.stepTimer.isSome && s.fxs.state == .opening) = true := by
      simp [Option.isSome_iff_ne_none, run, st]
    exact raises _ (if_pos taken) rfl rfl (by decide) rfl
  · have taken : (s.fxs.stepTimer.isSome && s.fxs.state == .locating) = true := by
      simp [Option.isSome_iff_ne_none, run, st]
    exact raises _ (if_pos taken) rfl rfl (by decide) rfl
  · have taken : (s.fxs.clampTimer.isSome && s.fxs.state == .clamping) = true := by
      simp [Option.isSome_iff_ne_none, run, st]
    exact raises _ (if_pos taken) rfl rfl (by decide) rfl
  · have run : exec (.memberSilent (i + 1)) s = .next (s.updatePeer i Peer.fallSilent).close := by
      change execMemberSilent (i + 1) s = _
      rw [execMemberSilent, if_pos (Nat.le_add_left 1 i), Nat.add_sub_cancel]
    refine ⟨_, run, ?_, ?_⟩
    · rw [SectionLine.close_pending (s.updatePeer i Peer.fallSilent) levels.1 .peerSilent (by decide)
        (level_pos levels (by decide))]
      exact fallSilent_condition on e h
    · rw [fallSilent_eq e h]
      exact close_follows _

end Sys2Proof.StepTime
end

section
/-! The readings of the fixture record, the incoming slot, the image and a member's record (R135, R144, R176, R177, Table 11-7). -/

namespace Sys2Proof.StepTime

open Sys2Proof.Machine Sys2Proof.Safety Sys2Proof.Claims

/-- R174, R177. -/
theorem responded_eq (s : State) (n : Nat) (k : Byte) (x : Status) (f : List Byte) : s.respond n k x f = Responded s n k x f := by
  unfold State.respond Responded shiftOut ShiftedOut
  cases s.cpt.response <;> rfl

/-- R177: a value that may be none. -/
theorem presence_eq {α : Type} (f : α → List Byte) (o : Option α) : presence f o = Presence o f := by
  cases o <;> rfl

/-- Table 11-7: a slot content. -/
theorem slotFields_eq (x : Slot) : slotFields x = SlotOctets x := by
  cases x <;> rfl

/-- Table 11-7: a slot's image entry starts with its station number. -/
theorem imageEntry_eq (p : Nat × Slot) : octets 1 p.1 ++ slotFields p.2 = BitVec.ofNat 8 p.1 :: SlotOctets p.2 := by
  rw [slotFields_eq]
  rfl

/-- R144: the image's octets, in two parts. -/
theorem imageFields_eq (s : State) : s.imageFields = (octets 2 s.ixs.index.toNat ++ octets 1 s.memberCount)
    ++ ((s.memberList.zip s.sim.slots).flatMap (fun p => BitVec.ofNat 8 p.1 :: SlotOctets p.2) ++ SlotOctets s.sim.exitSlot) := by
  unfold State.imageFields
  simp only [imageEntry_eq, List.append_assoc]
  rw [slotFields_eq]

/-- R32. -/
theorem silent_eq (p : Peer) : p.silent = match p.silence with | some us => decide (150000 ≤ us) | none => false := by
  unfold Peer.silent
  cases p.silence <;> rfl

/-- R32, R176: the silence count in ms. -/
theorem silenceOctets_eq (p : Peer) : presence (octets 2) p.silenceMs = Presence p.silence fun us => octets 2 (us / 1000) := by
  unfold Peer.silenceMs
  cases p.silence <;> rfl

/-- R176: a member's record, column by column. -/
theorem peerFields_eq (n : Nat) (p : Peer) : peerFields n p = PeerOctets n p := by
  unfold peerFields PeerOctets
  rw [silenceOctets_eq, silent_eq]
  simp only [presence_eq]
  have columns (x y : List Byte) : x ++ octets 1 p.matched.code ++ octets 1 p.level ++ octets 1 p.cause ++ y
      = x ++ [BitVec.ofNat 8 p.matched.code, BitVec.ofNat 8 p.level, BitVec.ofNat 8 p.cause] ++ y := by
    simp [SectionLine.octets_one]
  rw [columns]
  rfl

theorem exec_getIncoming {s : State} (on : s.ixs.state ≠ .offline) (load : s.isLoad = false) :
    exec .getIncoming s = .next (match s.rst.incoming with
      | some i => Responded s 4 12 .done (octets 2 i.index.toNat ++ contentOctets i.content)
      | none => Responded s 4 12 .nothing []) := by
  change execGetIncoming s = _
  have here : ¬(s.offline || s.isLoad) = true := by simp [State.offline, on, load]
  rw [execGetIncoming, if_neg here]
  cases s.rst.incoming with
  | some i => exact congrArg Host.Outcome.next (responded_eq s 4 12 .done (incomingFields i))
  | none => exact congrArg Host.Outcome.next (responded_eq s 4 12 .nothing [])

/-- R176: GET_PEER of a member. -/
theorem exec_getPeer {s : State} (on : s.ixs.state ≠ .offline) {b : Byte} {p : Peer} (lo : 1 ≤ b.toNat) (hi : b.toNat ≤ 63)
    (e : s.peers[s.memberList.idxOf b.toNat]? = some p) :
    exec (.getPeer b) s = .next (Responded s 5 15 .done (PeerOctets (s.memberList.idxOf b.toNat + 1) p)) := by
  change execGetPeer b s = _
  have station : ¬(b.toNat = 0 ∨ 63 < b.toNat) := by omega
  have here : ¬s.offline = true := by simp [State.offline, on]
  rw [execGetPeer, if_neg station, if_neg here, e, ← peerFields_eq]
  exact congrArg Host.Outcome.next (responded_eq s 5 15 .done _)

/-- Settles O9: each reading's fields are those of Table 11-7. -/
theorem recordsImageAndPeersRead : Obligations.RecordsImageAndPeersRead := by
  intro s
  refine ⟨?_, fun on => ⟨exec_getIncoming on, ?_, fun b i p lo hi place e => ?_⟩⟩
  · change execGetFixtureRecord s = _
    rw [execGetFixtureRecord, responded_eq, State.fixtureFields]
    cases s.ixs.pendingResult <;> cases s.rst.outgoing <;> rfl
  · have here : ¬s.offline = true := by simp [State.offline, on]
    refine ⟨s.imageFields, ?_, ?_, ?_⟩
    · change execGetImage s = _
      rw [execGetImage, if_neg here]
      exact congrArg Host.Outcome.next (responded_eq s 4 14 .done s.imageFields)
    · rw [imageFields_eq]
      exact List.take_left' (by simp)
    · rw [imageFields_eq]
      exact List.drop_left' (by simp)
  · subst place
    exact exec_getPeer on lo hi e

end Sys2Proof.StepTime
end

section
/-! The conditions of the events that the state itself brings about and of those that fall due by time (R15, R22, R33, R42, R71 to R73,
R88, R93, R111, R171). -/

namespace Sys2Proof.StepTime

open Sys2Proof.Machine Sys2Proof.Claims

/-! What the tests of the clock say. -/

theorem beatReached_iff (x y : LineTime) : beatReached x y = true ↔ Reached x y := decide_eq_true_iff

theorem ranOut_iff (t : Option Nat) : ranOut t = true ↔ t = some 0 := beq_iff_eq

theorem common_iff (k : PgnKind) : k.common = true ↔ k = .forward ∨ k = .resume := by
  cases k <;> simp [PgnKind.common]

theorem localKind_iff (k : PgnKind) : k.localKind = true ↔ k = .ret ∨ k = .reposition ∨ k = .homing := by
  cases k <;> simp [PgnKind.localKind]

/-- R71, R77. -/
theorem originDue_iff (s : State) : s.originDue = true ↔ OriginReached s := by
  simp only [State.originDue, State.awaitsOrigin, OriginReached, Bool.and_eq_true, Bool.or_eq_true, beq_iff_eq, common_iff,
    beatReached_iff, Bool.not_eq_true', and_assoc]

/-- R71, R73, R77. -/
theorem periodRuns_iff (s : State) : s.periodRuns = true ↔ PeriodRuns s := by
  simp only [State.periodRuns, PeriodRuns, Bool.and_eq_true, Bool.or_eq_true, beq_iff_eq]

theorem commonPeriodOver_iff (s : State) (x : LineTime) : s.commonPeriodOver x = true ↔ PeriodOver s x := by
  simp only [State.commonPeriodOver, PeriodOver, Bool.and_eq_true, common_iff, beatReached_iff, and_assoc]
  rfl

/-- R71, R72. -/
theorem stepEndsPeriod_iff (s : State) : s.stepEndsPeriod = true ↔ StepEndsPeriod s := by
  unfold State.stepEndsPeriod StepEndsPeriod
  cases s.pgn.stepFrom with
  | none => simp
  | some x =>
    simp only [Bool.and_eq_true, Bool.not_eq_true', ← Bool.not_eq_true, periodRuns_iff, commonPeriodOver_iff, and_assoc,
      Option.some.injEq, exists_eq_left']

/-- R88. -/
theorem mayHome_iff (s : State) : s.mayHome = true ↔ HomingStarts s := by
  simp only [State.mayHome, HomingStarts, Bool.and_eq_true, beq_iff_eq, Bool.not_eq_true', and_assoc]

/-- R171. -/
theorem mayLeaveForming_iff (s : State) : s.mayLeaveForming = true ↔ FormingEnds s := by
  simp only [State.mayLeaveForming, FormingEnds, Bool.and_eq_true, Bool.or_eq_true, beq_iff_eq, bne_iff_ne, List.all_eq_true,
    and_assoc, imp_iff_not_or, ne_eq]

/-- R42: the exit queue has room. -/
theorem exitRoom_iff (s : State) :
    s.exitRoom = true ↔ (s.isUnload = true → s.rst.status = .held → s.rst.exitQueue.length < 4) := by
  simp only [State.exitRoom, Bool.or_eq_true, Bool.not_eq_true', ← Bool.not_eq_true, Bool.and_eq_true, beq_iff_eq,
    decide_eq_true_eq, ← and_imp]
  exact imp_iff_not_or.symm

/-- R42. -/
theorem mayOfferReady_iff (s : State) : s.mayOfferReady = true ↔ ReadyGoes s := by
  simp only [State.mayOfferReady, State.fixtureReady, ReadyGoes, Bool.and_eq_true, Bool.or_eq_true, beq_iff_eq,
    decide_eq_true_eq, exitRoom_iff, Option.isSome_iff_ne_none, and_assoc]

/-- A test that says its event's condition is one step of the search for the first event whose condition holds. -/
theorem find_cons_eq {s : State} [DecidablePred fun x : Instr × (State → Prop) => x.2 s] {c : Instr} {p : State → Prop}
    {l : List (Instr × (State → Prop))} {test : Bool} {rest : Option Instr} (condition : test = true ↔ p s)
    (found : rest = (l.find? fun x => decide (x.2 s)).map Prod.fst) :
    (if test then some c else rest) = (((c, p) :: l).find? fun x => decide (x.2 s)).map Prod.fst := by
  by_cases holds : p s
  · rw [if_pos (condition.2 holds), List.find?_cons_of_pos (by simpa using holds)]
    rfl
  · rw [if_neg (mt condition.1 holds), List.find?_cons_of_neg (by simpa using holds), found]

/-- R42, R71, R72, R88, R171: the event of the state itself is the first of those whose condition holds. -/
theorem triggered_eq (s : State) [DecidablePred fun x : Instr × (State → Prop) => x.2 s] :
    s.triggered = (triggers.find? fun x => decide (x.2 s)).map Prod.fst := by
  unfold State.triggered triggers
  exact find_cons_eq (originDue_iff s) <| find_cons_eq (stepEndsPeriod_iff s) <| find_cons_eq (mayHome_iff s)
    <| find_cons_eq (mayLeaveForming_iff s) <| find_cons_eq (mayOfferReady_iff s) rfl

/-- R42, R71, R72, R88, R171: an event whose condition holds, and none before it. -/
theorem triggered_first {s : State} {a b : List (Instr × (State → Prop))} {x : Instr × (State → Prop)}
    (split : triggers = a ++ x :: b) (holds : x.2 s) (first : ∀ y ∈ a, ¬y.2 s) : s.triggered = some x.1 := by
  classical
  have found : triggers.find? (fun x => decide (x.2 s)) = some x :=
    List.find?_eq_some_iff_append.2 ⟨decide_eq_true holds, a, b, split, fun y i => by simpa using first y i⟩
  rw [triggered_eq, found]
  rfl

theorem triggered_none {s : State} (h : ∀ x ∈ triggers, ¬x.2 s) : s.triggered = none := by
  classical
  have found : triggers.find? (fun x => decide (x.2 s)) = none :=
    List.find?_eq_none.2 fun x i => by simpa using h x i
  rw [triggered_eq, found]
  rfl

/-- R21. -/
theorem beatDue_iff (s : State) : s.beatDue = true ↔ ∃ b, s.ltu.nextBeat = some b ∧ Reached s.ltu.lineTime b := by
  unfold State.beatDue
  cases s.ltu.nextBeat with
  | none => simp
  | some b => simp only [beatReached_iff, Option.some.injEq, exists_eq_left']

/-- R111: the settle counter counts. -/
theorem settling_iff (f : Fxs) (i : Inputs) :
    f.settling i = true ↔ (f.state = .clamping ∨ f.state = .secured) ∧ i.pressure = true := by
  simp only [Fxs.settling, Bool.and_eq_true, Bool.or_eq_true, beq_iff_eq]

/-- R111. -/
theorem markDue_iff (s : State) : s.markDue = true ↔ (s.fxs.state = .clamping ∨ s.fxs.state = .secured)
    ∧ s.inputs.pressure = true ∧ s.fxs.marks < 7 ∧ s.fxs.settle = 8 * 2 ^ (s.fxs.marks + 1) * 1000 := by
  simp only [State.markDue, State.mayMark, Bool.and_eq_true, settling_iff, decide_eq_true_eq, beq_iff_eq, and_assoc]
  rfl

/-- R73. -/
theorem awaitsLocal_iff (s : State) : s.awaitsLocal = true ↔
    (s.pgn.kind = .ret ∨ s.pgn.kind = .reposition ∨ s.pgn.kind = .homing) ∧ s.pgn.phase = .waiting := by
  simp only [State.awaitsLocal, Bool.and_eq_true, localKind_iff, beq_iff_eq]

/-- R71, R73. -/
theorem periodDue_iff (s : State) : s.periodDue = true ↔ PeriodRuns s ∧ (PeriodOver s s.ltu.lineTime
    ∨ ((s.pgn.kind = .ret ∨ s.pgn.kind = .reposition ∨ s.pgn.kind = .homing) ∧ s.pgn.localTimer = some 0)) := by
  simp only [State.periodDue, Bool.and_eq_true, Bool.or_eq_true, periodRuns_iff, commonPeriodOver_iff, localKind_iff, ranOut_iff]

/-- R93: no word is being sent. -/
theorem lineFree_iff (s : State) : s.lineFree = true ↔ 40 ≤ s.ssv.wordAge := decide_eq_true_iff

end Sys2Proof.StepTime
end

section
/-! The events that wait at the end of a microsecond, by what brings them (R32, R33, R88, R104, R178). -/

namespace Sys2Proof.StepTime

open Sys2Proof.Machine Sys2Proof.Claims

/-- What brings an event that waits at the end of a microsecond. -/
inductive Source where
  | time | silence | line | locators | plate | capture

/-- R33, R88, R104, R178: the events of a silent member, of a sample of one line, of the locators, of the plate code lines and of the home
capture; every other event falls due by time, or not at all. -/
def source : Instr → Source
  | .memberSilent _ => .silence
  | .machClearDrop | .machClearOn | .emergencyOn | .emergencyOff | .driveFaultOn | .driveFaultOff | .clampPressureOff
  | .clampPressureMade | .palletPresentChange _ | .liftUpSensorOn | .liftDownSensorOn | .liftSensorOff _
  | .homeSensorChange _ => .line
  | .locatorsEngaged .. | .locatorOff .. => .locators
  | .plateCodeChange _ => .plate
  | .homeCapture _ => .capture
  | _ => .time

theorem mem_dueIf {b : Bool} {c d : Instr} : c ∈ dueIf b d ↔ c = d ∧ b = true := by
  unfold dueIf
  cases b <;> simp

/-! The events that fall due by time. -/

/-- The events that time brings before the silence of members is looked at, with the tests of the clock. -/
def dueBefore : List (Instr × (State → Bool)) :=
  [(.foreignFrameTimerExpiry, fun s => ranOut s.lpt.foreignTimer), (.beatInstant, State.beatDue)]

/-- The events that time brings after it. -/
def dueAfter : List (Instr × (State → Bool)) :=
  [(.joinRepetition, fun s => ranOut s.ixs.joinTimer),
   (.liftBarrierTimerExpiry, fun s => ranOut s.ixs.liftBarrierTimer),
   (.loweringTimerExpiry, fun s => ranOut s.ixs.loweringTimer),
   (.upstreamTimerExpiry, fun s => ranOut s.ixs.upstreamTimer),
   (.homingTimerExpiry, fun s => ranOut s.ssv.homingTimer),
   (.homeCheckTimerExpiry, fun s => ranOut s.ssv.homeCheckTimer),
   (.releaseStepTimerExpiry, fun s => ranOut s.fxs.stepTimer && s.fxs.state == .opening),
   (.locateTimerExpiry, fun s => ranOut s.fxs.stepTimer && s.fxs.state == .locating),
   (.clampTimerExpiry, fun s => ranOut s.fxs.clampTimer),
   (.settleMarkSet, State.markDue),
   (.profileOrigin, State.originDue),
   (.localProfileStart, fun s => s.awaitsLocal && ranOut s.pgn.localTimer),
   (.periodEnd, State.periodDue),
   (.setpointWordEnd, fun s => s.ssv.wordWaiting && s.lineFree),
   (.setpointWordRepeat, fun s => s.ssv.wordAge == Config.wordRepeat)]

/-- The tests of the clock are the conditions of the statement, event by event. -/
theorem dueEvents_tests : List.Forall₂ (fun x y => y.1 = x.1 ∧ ∀ s : State, y.2 s = true ↔ x.2 s) dueEvents
    (dueBefore ++ dueAfter) := by
  refine .cons ⟨rfl, fun s => ranOut_iff _⟩ <| .cons ⟨rfl, beatDue_iff⟩ <| .cons ⟨rfl, fun s => ranOut_iff _⟩
    <| .cons ⟨rfl, fun s => ranOut_iff _⟩ <| .cons ⟨rfl, fun s => ranOut_iff _⟩ <| .cons ⟨rfl, fun s => ranOut_iff _⟩
    <| .cons ⟨rfl, fun s => ranOut_iff _⟩ <| .cons ⟨rfl, fun s => ranOut_iff _⟩ <| .cons ⟨rfl, fun s => ?_⟩
    <| .cons ⟨rfl, fun s => ?_⟩ <| .cons ⟨rfl, fun s => ranOut_iff _⟩ <| .cons ⟨rfl, markDue_iff⟩
    <| .cons ⟨rfl, originDue_iff⟩ <| .cons ⟨rfl, fun s => ?_⟩ <| .cons ⟨rfl, periodDue_iff⟩ <| .cons ⟨rfl, fun s => ?_⟩
    <| .cons ⟨rfl, fun s => beq_iff_eq⟩ .nil
  · simp only [Bool.and_eq_true, ranOut_iff, beq_iff_eq]
  · simp only [Bool.and_eq_true, ranOut_iff, beq_iff_eq]
  · simp only [Bool.and_eq_true, awaitsLocal_iff, ranOut_iff, and_assoc]
  · simp only [Bool.and_eq_true, lineFree_iff]

/-- No two events of time are the same, and none is another source's. -/
theorem dueTests_names : ((dueBefore ++ dueAfter).map Prod.fst).Nodup
    ∧ ∀ c ∈ (dueBefore ++ dueAfter).map Prod.fst, source c = .time := by
  refine ⟨by decide, ?_⟩
  simp [dueBefore, dueAfter, source]

/-- R33: the silent members by position. -/
theorem mem_silentNow {c : Instr} (n : Nat) (l : List Peer) : c ∈ silentNow n l ↔
    ∃ k p, c = .memberSilent (n + k) ∧ l[k]? = some p ∧ p.silence = some 150000 := by
  induction l generalizing n with
  | nil => simp [silentNow]
  | cons a l ih =>
    rw [silentNow, List.mem_append, mem_dueIf, ih, beq_iff_eq]
    constructor
    · rintro (⟨rfl, h⟩ | ⟨k, p, rfl, e, h⟩)
      · exact ⟨0, a, rfl, rfl, h⟩
      · exact ⟨k + 1, p, by rw [Nat.add_assoc, Nat.add_comm 1], e, h⟩
    · rintro ⟨k | k, p, rfl, e, h⟩
      · cases e
        exact .inl ⟨rfl, h⟩
      · exact .inr ⟨k, p, by rw [Nat.add_assoc, Nat.add_comm 1], e, h⟩

/-! The events of a sample. -/

/-- R178, Table 11-3: an input of one line as the statement has it. -/
def lineOf (x : InputLine) : Line := ⟨fun g => g.line x, fun i => i.taken x, x.onLevel⟩

/-- R178: the inputs of one line but the locators, with their changes to off and to on. -/
def lineChanges : List (InputLine × Instr × Instr) :=
  [(.machClear, .machClearDrop, .machClearOn), (.emergency, .emergencyOff, .emergencyOn),
   (.driveFault, .driveFaultOff, .driveFaultOn), (.home, .homeSensorChange false, .homeSensorChange true),
   (.liftUp, .liftSensorOff true, .liftUpSensorOn), (.liftDown, .liftSensorOff false, .liftDownSensorOn),
   (.pressure, .clampPressureOff, .clampPressureMade),
   (.palletPresent, .palletPresentChange false, .palletPresentChange true)]

theorem changes_eq : changes = lineChanges.map fun e => (lineOf e.1, e.2.1, e.2.2) := rfl

theorem lines_eq : lines = [InputLine.emergency, .driveFault, .machClear, .home, .liftUp, .liftDown, .palletPresent, .pressure,
    .locator1, .locator2].map lineOf := rfl

/-- R178: no two changes are the same event, and each is a change of a line. -/
theorem lineChanges_names :
    (∀ e ∈ lineChanges, ∀ f ∈ lineChanges, (e.2.1 = f.2.1 → e = f) ∧ (e.2.2 = f.2.2 → e = f) ∧ e.2.1 ≠ f.2.2)
    ∧ ∀ e ∈ lineChanges, source e.2.1 = .line ∧ source e.2.2 = .line := by
  refine ⟨by decide, ?_⟩
  simp [lineChanges, source]

/-- R88, R104, R178: the events of a sample. -/
theorem mem_sampleEvents (s : State) (c : Instr) : c ∈ s.sampleEvents ↔
    (∃ e ∈ lineChanges, c ∈ s.lineEvent e.1 e.2.1 e.2.2) ∨ c ∈ s.locatorEvents
      ∨ c ∈ dueIf s.plateTakes (.plateCodeChange s.sampling.plate.code) ∨ c ∈ s.captureEvents := by
  simp only [State.sampleEvents, lineChanges, List.mem_append, List.exists_mem_cons_iff, List.not_mem_nil, false_and,
    exists_false, or_false]
  grind only

/-- The events that wait at the end of a microsecond. -/
theorem mem_due (s : State) (c : Instr) : c ∈ s.due ↔
    (∃ x ∈ dueBefore ++ dueAfter, c = x.1 ∧ x.2 s = true) ∨ c ∈ silentNow 1 s.peers
      ∨ (s.sampling.due = true ∧ c ∈ s.sampleEvents) := by
  have tests : s.due = dueBefore.flatMap (fun x => dueIf (x.2 s) x.1) ++ silentNow 1 s.peers
      ++ dueAfter.flatMap (fun x => dueIf (x.2 s) x.1) ++ (if s.sampling.due then s.sampleEvents else []) := by
    unfold State.due
    simp only [dueBefore, dueAfter, List.flatMap_cons, List.flatMap_nil, List.append_nil, List.append_assoc]
  have sampled : c ∈ (if s.sampling.due then s.sampleEvents else []) ↔ s.sampling.due = true ∧ c ∈ s.sampleEvents := by
    cases s.sampling.due <;> simp
  rw [tests]
  simp only [List.mem_append, List.mem_flatMap, mem_dueIf, sampled, or_and_right, exists_or]
  exact (or_congr_left or_right_comm).trans or_assoc

end Sys2Proof.StepTime
end

section
/-! One microsecond: what waits at its end by source, what a sample does to the lines, and the step with no command waiting (R20, R33, R88,
R104, R178). -/

namespace Sys2Proof.StepTime

open Sys2Proof.Machine Sys2Proof.Claims

variable {s : State} {c : Instr}

/-! The sources of the events. -/

theorem source_time {x : Instr × (State → Bool)} (h : x ∈ dueBefore ++ dueAfter) : source x.1 = .time :=
  dueTests_names.2 _ (List.mem_map_of_mem h)

theorem source_silentNow {n : Nat} {l : List Peer} (h : c ∈ silentNow n l) : source c = .silence := by
  obtain ⟨k, p, rfl, -, -⟩ := (mem_silentNow n l).1 h
  rfl

/-- R178: the change of an input is among the events of its line where the sample takes it, off or on as the line stands. -/
theorem mem_lineEvent_iff {x : InputLine} {off on : Instr} : c ∈ s.lineEvent x off on ↔
    s.lineTakes x = true ∧ ((c = off ∧ s.lineOn x = false) ∨ (c = on ∧ s.lineOn x = true)) := by
  rw [mem_lineEvent]
  cases s.lineOn x <;> simp

theorem source_line {e : InputLine × Instr × Instr} (h : e ∈ lineChanges) (k : c ∈ s.lineEvent e.1 e.2.1 e.2.2) :
    source c = .line := by
  obtain ⟨off, on⟩ := lineChanges_names.2 e h
  rcases (mem_lineEvent_iff.1 k).2 with ⟨rfl, -⟩ | ⟨rfl, -⟩
  · exact off
  · exact on

theorem source_locators (h : c ∈ s.locatorEvents) : source c = .locators := by
  unfold State.locatorEvents at h
  dsimp only at h
  split at h
  · rw [List.mem_singleton.1 h]
    rfl
  · split at h
    · rw [List.mem_singleton.1 h]
      rfl
    · cases h

theorem source_plate (h : c ∈ dueIf s.plateTakes (.plateCodeChange s.sampling.plate.code)) : source c = .plate := by
  rw [(mem_dueIf.1 h).1]
  rfl

theorem source_capture (h : c ∈ s.captureEvents) : source c = .capture := by
  rcases List.mem_append.1 h with h | h <;> rw [(mem_dueIf.1 h).1] <;> rfl

/-- An event of a sample comes from the lines, the locators, the plate code lines or the home capture. -/
theorem source_sample (h : c ∈ s.sampleEvents) : source c ≠ .time ∧ source c ≠ .silence := by
  rcases (mem_sampleEvents s c).1 h with ⟨e, i, h⟩ | h | h | h
  · rw [source_line i h]
    exact ⟨nofun, nofun⟩
  · rw [source_locators h]
    exact ⟨nofun, nofun⟩
  · rw [source_plate h]
    exact ⟨nofun, nofun⟩
  · rw [source_capture h]
    exact ⟨nofun, nofun⟩

/-- The events that time brings are those whose tests hold. -/
theorem mem_due_time (h : source c = .time) : c ∈ s.due ↔ ∃ x ∈ dueBefore ++ dueAfter, c = x.1 ∧ x.2 s = true := by
  rw [mem_due]
  refine ⟨fun k => ?_, .inl⟩
  rcases k with k | k | ⟨-, k⟩
  · exact k
  · rw [source_silentNow k] at h
    cases h
  · exact absurd h (source_sample k).1

/-- R33: the silence of members brings no other event. -/
theorem mem_due_silence (h : source c = .silence) : c ∈ s.due ↔ c ∈ silentNow 1 s.peers := by
  rw [mem_due]
  refine ⟨fun k => ?_, fun k => .inr (.inl k)⟩
  rcases k with ⟨x, i, rfl, -⟩ | k | ⟨-, k⟩
  · rw [source_time i] at h
    cases h
  · exact k
  · exact absurd h (source_sample k).2

/-- R178: an event of a sample waits where the sample is due and brings it. -/
theorem mem_due_sample (due : s.sampling.due = true) (t : source c ≠ .time) (n : source c ≠ .silence) :
    c ∈ s.due ↔ c ∈ s.sampleEvents := by
  rw [mem_due]
  refine ⟨fun k => ?_, fun k => .inr (.inr ⟨due, k⟩)⟩
  rcases k with ⟨x, i, rfl, -⟩ | k | ⟨-, k⟩
  · exact absurd (source_time i) t
  · exact absurd (source_silentNow k) n
  · exact k

/-- R178: the changes of lines. -/
theorem mem_sample_line (h : source c = .line) :
    c ∈ s.sampleEvents ↔ ∃ e ∈ lineChanges, c ∈ s.lineEvent e.1 e.2.1 e.2.2 := by
  rw [mem_sampleEvents]
  refine ⟨fun k => ?_, .inl⟩
  rcases k with k | k | k | k
  · exact k
  · cases h.symm.trans (source_locators k)
  · cases h.symm.trans (source_plate k)
  · cases h.symm.trans (source_capture k)

/-- R104: the change of the locators. -/
theorem mem_sample_locators (h : source c = .locators) : c ∈ s.sampleEvents ↔ c ∈ s.locatorEvents := by
  rw [mem_sampleEvents]
  refine ⟨fun k => ?_, fun k => .inr (.inl k)⟩
  rcases k with ⟨e, i, k⟩ | k | k | k
  · cases h.symm.trans (source_line i k)
  · exact k
  · cases h.symm.trans (source_plate k)
  · cases h.symm.trans (source_capture k)

/-- R104: the change of the plate code. -/
theorem mem_sample_plate (h : source c = .plate) :
    c ∈ s.sampleEvents ↔ c = .plateCodeChange s.sampling.plate.code ∧ s.plateTakes = true := by
  rw [mem_sampleEvents, mem_dueIf]
  refine ⟨fun k => ?_, fun k => .inr (.inr (.inl k))⟩
  rcases k with ⟨e, i, k⟩ | k | k | k
  · cases h.symm.trans (source_line i k)
  · cases h.symm.trans (source_locators k)
  · exact k
  · cases h.symm.trans (source_capture k)

/-- R88: the home capture. -/
theorem mem_sample_capture (h : source c = .capture) : c ∈ s.sampleEvents ↔ c ∈ s.captureEvents := by
  rw [mem_sampleEvents]
  refine ⟨fun k => ?_, fun k => .inr (.inr (.inr k))⟩
  rcases k with ⟨e, i, k⟩ | k | k | k
  · cases h.symm.trans (source_line i k)
  · cases h.symm.trans (source_locators k)
  · cases h.symm.trans (source_plate k)
  · exact k

/-! Events by the statement's conditions. -/

/-- In lists related place by place an element of the one has its fellow in the other. -/
theorem exists_fellow {α β : Type*} {R : α → β → Prop} {l : List α} {m : List β} (h : List.Forall₂ R l m) {a : α}
    (i : a ∈ l) : ∃ b ∈ m, R a b := by
  induction h with
  | nil => cases i
  | cons r _ ih =>
    rcases List.mem_cons.1 i with rfl | i
    · exact ⟨_, List.mem_cons_self, r⟩
    · obtain ⟨b, j, r⟩ := ih i
      exact ⟨b, List.mem_cons_of_mem _ j, r⟩

/-- Each event of time waits where its condition holds. -/
theorem dueEvents_mem {x : Instr × (State → Prop)} (h : x ∈ dueEvents) (s : State) : x.1 ∈ s.due ↔ x.2 s := by
  obtain ⟨y, i, name, test⟩ := exists_fellow dueEvents_tests h
  rw [← name, mem_due_time (source_time i), ← test s]
  refine ⟨fun ⟨z, j, same, holds⟩ => ?_, fun holds => ⟨y, i, rfl, holds⟩⟩
  rw [List.inj_on_of_nodup_map dueTests_names.1 i j same]
  exact holds

/-- R33: MEMBER_SILENT waits where a silence count reaches 150 ms. -/
theorem memberSilent_mem (s : State) (i : Nat) :
    .memberSilent i ∈ s.due ↔ ∃ k p, i = k + 1 ∧ s.peers[k]? = some p ∧ p.silence = some 150000 := by
  rw [mem_due_silence rfl, mem_silentNow]
  simp only [Instr.memberSilent.injEq, Nat.add_comm 1]

/-- R178: the event of a line is one of the changes of the statement. -/
theorem ofSample_of_mem (h : c ∈ s.sampleEvents) : OfSample c := by
  rcases (mem_sampleEvents s c).1 h with ⟨e, i, h⟩ | h | h | h
  · refine .inl ⟨(lineOf e.1, e.2.1, e.2.2), changes_eq ▸ List.mem_map_of_mem i, ?_⟩
    rcases (mem_lineEvent_iff.1 h).2 with ⟨e, -⟩ | ⟨e, -⟩
    · exact .inl e
    · exact .inr e
  · unfold State.locatorEvents at h
    dsimp only at h
    split at h
    · exact .inr (.inr (.inl ⟨_, _, .inr (List.mem_singleton.1 h)⟩))
    · split at h
      · exact .inr (.inr (.inl ⟨_, _, .inl (List.mem_singleton.1 h)⟩))
      · cases h
  · exact .inr (.inr (.inr ⟨_, (mem_dueIf.1 h).1⟩))
  · rcases List.mem_append.1 h with h | h
    · exact .inr (.inl ⟨_, (mem_dueIf.1 h).1⟩)
    · exact .inr (.inl ⟨_, (mem_dueIf.1 h).1⟩)

/-- Nothing else waits at the end of a microsecond. -/
theorem due_cases (h : c ∈ s.due) :
    (∃ x ∈ dueEvents, c = x.1) ∨ (∃ i, c = .memberSilent i) ∨ (s.sampling.due = true ∧ OfSample c) := by
  rcases (mem_due s c).1 h with ⟨y, i, rfl, -⟩ | h | ⟨due, h⟩
  · obtain ⟨x, j, name, -⟩ := exists_fellow dueEvents_tests.flip i
    exact .inl ⟨x, j, name⟩
  · obtain ⟨k, p, e, -, -⟩ := (mem_silentNow _ _).1 h
    exact .inr (.inl ⟨_, e⟩)
  · exact .inr (.inr ⟨due, ofSample_of_mem h⟩)

/-! The lines (R178). -/

theorem moved_iff (s : State) (x : InputLine) : Moved s (lineOf x) ↔ s.lineMoved x = true := (lineMoved_iff s x).symm

theorem third_iff (s : State) (x : InputLine) : Third s (lineOf x) ↔ s.lineTakes x = true := by
  rw [Third, moved_iff, State.lineTakes, Bool.and_eq_true, decide_eq_true_eq]
  exact and_congr_right fun _ => Nat.succ_le_succ_iff.symm

/-- R178: the count of a line after a sample. -/
theorem sampleLine_run (s : State) (x : InputLine) :
    (Moved s (lineOf x) ∧ ¬Third s (lineOf x) → (s.sampleLine x).run = (s.sampling.line x).run + 1)
      ∧ (¬Moved s (lineOf x) ∨ Third s (lineOf x) → (s.sampleLine x).run = 0) := by
  rw [moved_iff, third_iff]
  rcases sampleLine_cases s x with ⟨t, e⟩ | ⟨t, m, e⟩ | ⟨m, e⟩ <;> rw [e]
  · exact ⟨fun h => absurd t h.2, fun _ => rfl⟩
  · exact ⟨fun _ => rfl, fun h => by simp [t, m] at h⟩
  · exact ⟨fun h => by simp [m] at h, fun _ => rfl⟩

/-- R178: a taken change is one away from the taken value. -/
theorem lineOn_of_takes {x : InputLine} (h : s.lineTakes x = true) : s.lineOn x = !s.inputs.taken x := by
  have moved := (Bool.and_eq_true_iff.1 h).1
  unfold State.lineMoved at moved
  cases a : s.lineOn x <;> cases b : s.inputs.taken x <;> simp_all

/-- R178: the change of a line to off, and its change to on. -/
theorem lineChange_mem {e : InputLine × Instr × Instr} (h : e ∈ lineChanges) :
    (e.2.1 ∈ s.sampleEvents ↔ s.lineTakes e.1 = true ∧ s.inputs.taken e.1 = true)
      ∧ (e.2.2 ∈ s.sampleEvents ↔ s.lineTakes e.1 = true ∧ s.inputs.taken e.1 = false) := by
  obtain ⟨off, on⟩ := lineChanges_names.2 e h
  rw [mem_sample_line off, mem_sample_line on]
  simp only [mem_lineEvent_iff]
  constructor <;> constructor
  · rintro ⟨f, i, takes, ⟨same, isOff⟩ | ⟨same, -⟩⟩
    · cases (lineChanges_names.1 e h f i).1 same
      exact ⟨takes, by simpa [lineOn_of_takes takes] using isOff⟩
    · exact absurd same (lineChanges_names.1 e h f i).2.2
  · rintro ⟨takes, was⟩
    exact ⟨e, h, takes, .inl ⟨rfl, by rw [lineOn_of_takes takes, was]; rfl⟩⟩
  · rintro ⟨f, i, takes, ⟨same, -⟩ | ⟨same, isOn⟩⟩
    · exact absurd same.symm (lineChanges_names.1 f i e h).2.2
    · cases (lineChanges_names.1 e h f i).2.1 same
      exact ⟨takes, by simpa [lineOn_of_takes takes] using isOn⟩
  · rintro ⟨takes, was⟩
    exact ⟨e, h, takes, .inr ⟨rfl, by rw [lineOn_of_takes takes, was]; rfl⟩⟩

/-- R88: the home capture begins and is discarded. -/
theorem capture_mem (s : State) :
    (.homeCapture true ∈ s.sampleEvents ↔ Moved s (lineOf .home) ∧ s.sampling.home.run = 0)
      ∧ (.homeCapture false ∈ s.sampleEvents ↔ ¬Moved s (lineOf .home) ∧ s.sampling.home.run ≠ 0) := by
  rw [mem_sample_capture rfl, mem_sample_capture rfl, moved_iff]
  simp [State.captureEvents, mem_dueIf]

/-- R104: the value of a locator after a sample. -/
theorem value_iff (takes was now : Bool) : (takes = true ↔ now ≠ was) ↔ now = (was ^^ takes) := by
  cases takes <;> cases was <;> cases now <;> decide

/-- R104: the two locators are taken at one instant. -/
theorem locator_mem (s : State) (a b : Bool) :
    let values := (Third s (lineOf .locator1) ↔ a ≠ s.inputs.locator1) ∧ (Third s (lineOf .locator2) ↔ b ≠ s.inputs.locator2)
    let lost := (s.inputs.locator1 = true ∧ a = false) ∨ (s.inputs.locator2 = true ∧ b = false)
    (.locatorOff a b ∈ s.sampleEvents ↔ values ∧ lost)
      ∧ (.locatorsEngaged a b ∈ s.sampleEvents ↔
          values ∧ ¬lost ∧ (Third s (lineOf .locator1) ∨ Third s (lineOf .locator2))) := by
  intro values lost
  have now : values ↔ a = (s.inputs.locator1 ^^ s.lineTakes .locator1) ∧ b = (s.inputs.locator2 ^^ s.lineTakes .locator2) := by
    rw [← value_iff, ← value_iff, ← third_iff, ← third_iff]
  rw [mem_sample_locators rfl, mem_sample_locators rfl, now, third_iff, third_iff]
  unfold State.locatorEvents
  dsimp only
  generalize (s.inputs.locator1 ^^ s.lineTakes .locator1) = x at *
  generalize (s.inputs.locator2 ^^ s.lineTakes .locator2) = y at *
  have lost_iff : (s.inputs.locator1 && !x || s.inputs.locator2 && !y) = true
      ↔ (s.inputs.locator1 = true ∧ x = false) ∨ (s.inputs.locator2 = true ∧ y = false) := by simp
  have at_values (e : a = x ∧ b = y) : (s.inputs.locator1 && !x || s.inputs.locator2 && !y) = true ↔ lost := by
    rw [lost_iff, ← e.1, ← e.2]
  by_cases off : (s.inputs.locator1 && !x || s.inputs.locator2 && !y) = true
  · rw [if_pos off]
    simp only [List.mem_singleton, Instr.locatorOff.injEq, reduceCtorEq, false_iff]
    exact ⟨⟨fun e => ⟨e, (at_values e).1 off⟩, And.left⟩, fun ⟨e, kept, _⟩ => kept ((at_values e).1 off)⟩
  · rw [if_neg off, ← Bool.or_eq_true]
    have kept (e : a = x ∧ b = y) : ¬lost := mt (at_values e).2 off
    split
    · simp only [List.mem_singleton, Instr.locatorsEngaged.injEq, reduceCtorEq, false_iff]
      exact ⟨fun ⟨e, l⟩ => kept e l, fun e => ⟨e, kept e, ‹_›⟩, And.left⟩
    · simp only [List.not_mem_nil, false_iff]
      exact ⟨fun ⟨e, l⟩ => kept e l, fun ⟨_, _, taken⟩ => ‹¬_› taken⟩

/-- R104: the third sample in a row of one new combination. -/
theorem plateTakes_iff (s : State) : s.plateTakes = true ↔ s.sampling.plate.code ≠ s.inputs.plate
    ∧ s.sampling.plate.sampled = some s.sampling.plate.code ∧ 2 ≤ s.sampling.plate.run := by
  rw [State.plateTakes, Bool.and_eq_true, bne_iff_ne, decide_eq_true_eq, PlateLines.runOn]
  by_cases e : s.sampling.plate.sampled = some s.sampling.plate.code
  · rw [if_pos e]
    simp [e, Config.samplesTaken]
  · rw [if_neg e]
    simp [e, Config.samplesTaken]

/-- R178: everything that one sample of every input does to the lines, and the events that it brings. -/
theorem sampled_of (s t : State) (lines : t.sampling = s.sampleLines)
    (events : ∀ c, source c ≠ .time → source c ≠ .silence → (c ∈ t.pending ↔ c ∈ s.sampleEvents)) : Sampled s t := by
  unfold Sampled
  intro i home first second p thirdCode
  rw [lines]
  refine ⟨rfl, fun x h => ?_, fun x h => ?_, ?_, ?_, fun a b => ?_, fun k => ?_, samplePlate_code s, fun h => ?_, fun h n => ?_⟩
  · rw [lines_eq] at h
    obtain ⟨y, -, rfl⟩ := List.mem_map.1 h
    have line : (lineOf y).state s.sampleLines = s.sampleLine y := sampleLines_line s y
    rw [line]
    exact ⟨rfl, sampleLine_run s y⟩
  · rw [changes_eq] at h
    obtain ⟨e, k, rfl⟩ := List.mem_map.1 h
    obtain ⟨off, on⟩ := lineChanges_names.2 e k
    rw [events _ (by rw [off]; nofun) (by rw [off]; nofun), events _ (by rw [on]; nofun) (by rw [on]; nofun), third_iff]
    exact lineChange_mem k
  · rw [events (.homeCapture true) nofun nofun]
    exact (capture_mem s).1
  · rw [events (.homeCapture false) nofun nofun]
    exact (capture_mem s).2
  · rw [events (.locatorOff a b) nofun nofun, events (.locatorsEngaged a b) nofun nofun]
    exact locator_mem s a b
  · rw [events (.plateCodeChange k) nofun nofun, mem_sample_plate rfl, plateTakes_iff, Instr.plateCodeChange.injEq, eq_comm]
  · have taken : s.sampling.plate.code = s.inputs.plate ∨ s.plateTakes = true := h.imp_right (plateTakes_iff s).2
    have plate : s.samplePlate = { s.sampling.plate with sampled := none, run := 0 } := if_pos taken
    exact ⟨congrArg PlateLines.sampled plate, congrArg PlateLines.run plate⟩
  · have kept : ¬(s.sampling.plate.code = s.inputs.plate ∨ s.plateTakes = true) :=
      fun k => k.elim h fun k => n ((plateTakes_iff s).1 k)
    have plate : s.samplePlate
        = { s.sampling.plate with sampled := some s.sampling.plate.code, run := s.sampling.plate.runOn } := if_neg kept
    exact ⟨congrArg PlateLines.sampled plate, congrArg PlateLines.run plate⟩

/-! One microsecond. -/

/-- R178: the sample reads the lines as they stand, whatever its clock. -/
theorem advance_sampleLines (s : State) : s.advance.sampleLines = s.sampleLines := rfl

theorem advance_sampleEvents (s : State) : s.advance.sampleEvents = s.sampleEvents := rfl

/-- R111: the settle counter of one microsecond. -/
theorem settleOn_eq (f : Fxs) (i : Inputs) : f.settleOn i = { f with settle :=
    if (f.state = .clamping ∨ f.state = .secured) ∧ i.pressure = true then min (f.settle + 1) 1024000 else f.settle } := by
  unfold Fxs.settleOn
  by_cases k : f.settling i = true
  · rw [if_pos k, if_pos ((settling_iff f i).1 k)]
    rfl
  · rw [if_neg k, if_neg (mt (settling_iff f i).2 k)]

/-- R20. -/
theorem tick_oneMicrosecond (s : State) : OneMicrosecond s s.tick :=
  ⟨rfl, rfl, rfl, rfl, rfl, rfl, settleOn_eq _ _, rfl, rfl, rfl, rfl, rfl, rfl, rfl, rfl⟩

/-- R178: the samples are due after 1,000 µs. -/
theorem advance_due (s : State) : s.advance.sampling.due = true ↔ 999 ≤ s.sampling.clock := by
  change decide (1000 ≤ s.sampling.clock + 1) = true ↔ _
  rw [decide_eq_true_eq]
  omega

/-- R178: a sample that is due. -/
theorem tick_sampled (due : 999 ≤ s.sampling.clock) : Sampled s s.tick := by
  have now := (advance_due s).2 due
  refine sampled_of s s.tick ?_ fun c t n => ?_
  · exact (if_pos now).trans (advance_sampleLines s)
  · exact (mem_due_sample now t n).trans (by rw [advance_sampleEvents])

theorem tick_unsampled (early : s.sampling.clock < 999) : s.tick.sampling = { s.sampling with clock := s.sampling.clock + 1 } :=
  if_neg fun now => Nat.not_le.2 early ((advance_due s).1 now)

/-- The conditions of the events of time read nothing of the sampling and the queue. -/
theorem dueEvents_tick {x : Instr × (State → Prop)} (h : x ∈ dueEvents) (s : State) : x.2 s.tick ↔ x.2 s.advance := by
  have same : dueEvents.map (fun x => x.2 s.tick) = dueEvents.map fun x => x.2 s.advance := rfl
  exact iff_of_eq (List.map_inj_left.1 same x h)

theorem step_idle (h : s.pending = []) : step s = .next s.runOn := by
  rw [step, h]

/-- Settles O2: the first trigger (`triggered_first`), or one microsecond with what it brings by time (`dueEvents_mem`), by silence
(`memberSilent_mem`) and by a sample (`tick_sampled`). -/
theorem emptyQueuePassesOneMicrosecond : Obligations.EmptyQueuePassesOneMicrosecond := by
  intro s idle
  rw [step_idle idle, State.runOn]
  refine ⟨fun a b x split holds first => by rw [triggered_first split holds first], fun quiet => ?_⟩
  rw [triggered_none quiet]
  refine ⟨s.tick, rfl, tick_oneMicrosecond s, fun x h => ?_, memberSilent_mem s.advance, tick_unsampled, tick_sampled,
    fun c h => ?_⟩
  · rw [dueEvents_tick h]
    exact dueEvents_mem h s.advance
  · exact (due_cases h).imp_right (Or.imp_right (And.imp_left (advance_due s).1))

end Sys2Proof.StepTime
end

section
/-! The profile procedure (R67, R68): what it builds, the velocity of each period, their sum and their steps. -/

namespace Sys2Proof.MotionProfiles

open Sys2Proof.Machine

/-! What the procedure builds. -/

/-- R67.2: the number that the search answers meets both bounds, and no larger one does. -/
theorem accelPeriods_spec (accel dist bound : Nat) :
    accelPeriods accel dist bound ≤ bound
      ∧ accelPeriods accel dist bound * accelPeriods accel dist bound * accel ≤ dist
      ∧ ∀ n ≤ bound, n * n * accel ≤ dist → n ≤ accelPeriods accel dist bound := by
  induction bound with
  | zero => exact ⟨Nat.le_refl 0, by simp [accelPeriods], fun n h _ => h⟩
  | succ b ih =>
    obtain ⟨le, fits, largest⟩ := ih
    unfold accelPeriods
    by_cases h : (b + 1) * (b + 1) * accel ≤ dist
    · rw [if_pos h]
      exact ⟨Nat.le_refl _, h, fun n le _ => le⟩
    · rw [if_neg h]
      refine ⟨Nat.le_succ_of_le le, fits, fun n le fits => largest n ?_ fits⟩
      rcases Nat.le_succ_iff.1 le with le | rfl
      · exact le
      · exact absurd fits h

/-- R68: creep period `c` stands where the velocities fall past the creep velocity: after the `nAccel - k` periods of velocity `k` steps of
the acceleration and more. -/
def CreepStands (accel : Nat) (p : Plan) (c : Nat) : Prop :=
  ∃ k, 1 ≤ k ∧ k ≤ p.nAccel ∧ (k - 1) * accel < p.creep ∧ p.creep ≤ k * accel
    ∧ c = p.nAccel + p.nCruise + (p.nAccel - k) + 1

/-- R67, R68: the plan of a profile of at least one acceleration period. -/
structure Built (dist vLimit accel : Nat) (p : Plan) : Prop where
  pos : 1 ≤ p.nAccel
  limit : p.nAccel * accel ≤ vLimit
  bound : accel * p.nAccel ^ 2 ≤ dist
  largest : ∀ n : Nat, n * accel ≤ vLimit → accel * n ^ 2 ≤ dist → n ≤ p.nAccel
  peak : p.vPeak = p.nAccel * accel
  shares : dist = accel * p.nAccel ^ 2 + p.nCruise * p.vPeak + p.creep
  creep_lt : p.creep < p.vPeak
  periods : p.periods = 2 * p.nAccel - 1 + p.nCruise + (if 0 < p.creep then 1 else 0)
  place : (p.creep = 0 ∧ p.creepPeriod = none) ∨ ∃ c, p.creepPeriod = some c ∧ CreepStands accel p c

/-- R68: the place of the creep period, with the number of steps that the creep velocity rounds up to. -/
theorem creepPlace_stands {accel na nc r : Nat} (pos : 1 ≤ accel) (some : 0 < r) (less : r < na * accel) :
    ∃ k, 1 ≤ k ∧ k ≤ na ∧ (k - 1) * accel < r ∧ r ≤ k * accel ∧ creepPlace accel na nc r = na + nc + (na - k) + 1 := by
  obtain ⟨k, hk⟩ : ∃ k, k = (r + accel - 1) / accel := ⟨_, rfl⟩
  have low : k * accel ≤ r + accel - 1 := hk ▸ Nat.div_mul_le_self _ _
  have high : r + accel - 1 < (k + 1) * accel := hk ▸ Nat.lt_mul_of_div_lt (Nat.lt_succ_self _) pos
  rw [Nat.add_mul, Nat.one_mul] at high
  have one : 1 ≤ k := by
    rcases Nat.eq_zero_or_pos k with rfl | h
    · omega
    · exact h
  have fits : k ≤ na := by
    refine Nat.le_of_lt_succ (Nat.lt_of_mul_lt_mul_right (a := accel) ?_)
    rw [Nat.succ_mul]
    omega
  have pred : (k - 1) * accel + accel = k * accel := by rw [← Nat.succ_mul]; congr 1; omega
  refine ⟨k, one, fits, by omega, by omega, ?_⟩
  unfold creepPlace
  rw [← hk]
  dsimp only
  split <;> omega

/-- R67: a distance shorter than the acceleration takes one period. -/
theorem plan_short {dist vLimit accel : Nat} (pos : 0 < dist) (short : dist < accel) :
    plan dist vLimit accel = ⟨0, 0, 0, 0, none, 1⟩ := by
  have zero : accelPeriods accel dist (vLimit / accel) = 0 := by
    have fits := (accelPeriods_spec accel dist (vLimit / accel)).2.1
    rcases Nat.eq_zero_or_pos (accelPeriods accel dist (vLimit / accel)) with e | h
    · exact e
    · have := Nat.le_mul_of_pos_left accel (Nat.mul_pos h h)
      omega
  unfold plan
  rw [if_neg (by omega)]
  dsimp only
  rw [if_pos zero]

/-- R67, R68: a distance of the acceleration or longer. -/
theorem plan_built {dist vLimit accel : Nat} (pos : 1 ≤ accel) (le : accel ≤ vLimit) (long : accel ≤ dist) :
    Built dist vLimit accel (plan dist vLimit accel) := by
  obtain ⟨within, fits, largest⟩ := accelPeriods_spec accel dist (vLimit / accel)
  have one := largest 1 ((Nat.one_le_div_iff pos).2 le) (by omega)
  unfold plan
  rw [if_neg (by omega)]
  dsimp only
  generalize accelPeriods accel dist (vLimit / accel) = na at *
  rw [if_neg (by omega)]
  have square (n : Nat) : accel * n ^ 2 = n * n * accel := by ring
  have most (n : Nat) (h : n * accel ≤ vLimit) (k : accel * n ^ 2 ≤ dist) : n ≤ na :=
    largest n ((Nat.le_div_iff_mul_le pos).2 h) (square n ▸ k)
  rw [← square] at fits
  rw [show accel * na * na = accel * na ^ 2 by ring]
  have peak : 0 < na * accel := Nat.mul_pos one pos
  have limit : na * accel ≤ vLimit := (Nat.le_div_iff_mul_le pos).1 within
  have shares := Nat.div_add_mod' (dist - accel * na ^ 2) (na * accel)
  have less := Nat.mod_lt (dist - accel * na ^ 2) peak
  rw [show dist - accel * na ^ 2 - (dist - accel * na ^ 2) / (na * accel) * (na * accel)
    = (dist - accel * na ^ 2) % (na * accel) by omega]
  generalize (dist - accel * na ^ 2) / (na * accel) = nc at *
  generalize (dist - accel * na ^ 2) % (na * accel) = r at *
  have total : dist = accel * na ^ 2 + nc * (na * accel) + r := by omega
  by_cases none : r = 0
  · rw [if_pos none]
    exact ⟨one, limit, fits, most, rfl, none ▸ total, peak, by simp, .inl ⟨rfl, rfl⟩⟩
  · rw [if_neg none]
    have stands := creepPlace_stands (nc := nc) pos (Nat.pos_of_ne_zero none) less
    exact ⟨one, limit, fits, most, rfl, total, less, by simp [Nat.pos_of_ne_zero none], .inr ⟨_, rfl, stands⟩⟩

/-! The velocity of each period (R67.3, Table 4-2). -/

/-- The number of creep periods before period `i`. -/
def creepsBefore (p : Plan) (i : Nat) : Nat :=
  match p.creepPeriod with
  | some c => if c < i then 1 else 0
  | none => 0

/-- Table 4-2: how many steps of the acceleration the velocity of period `i` is, the creep period apart. -/
def steps (p : Plan) (i : Nat) : Nat := min i (p.nAccel - (i - (p.nAccel + p.nCruise + creepsBefore p i)))

/-- The velocity of period `i` where it is 1 to N, and rest elsewhere. -/
def velocityAt (dist accel : Nat) (p : Plan) (i : Nat) : Nat :=
  if 1 ≤ i ∧ i ≤ p.periods then planVelocity dist accel p i else 0

variable {dist vLimit accel : Nat} {p : Plan}

theorem CreepStands.after {c : Nat} (h : CreepStands accel p c) : p.nAccel + p.nCruise < c := by
  obtain ⟨k, -, -, -, -, rfl⟩ := h
  omega

/-- The number of periods of a plan without and with a creep period. -/
theorem Built.periods_cases (h : Built dist vLimit accel p) :
    (p.creep = 0 ∧ p.creepPeriod = none ∧ p.periods = p.nAccel + p.nCruise + (p.nAccel - 1))
      ∨ ∃ c, p.creepPeriod = some c ∧ CreepStands accel p c ∧ p.periods = p.nAccel + p.nCruise + p.nAccel := by
  have one := h.pos
  rcases h.place with ⟨zero, none⟩ | ⟨c, some, stands⟩
  · refine .inl ⟨zero, none, ?_⟩
    rw [h.periods, zero, if_neg (Nat.lt_irrefl 0)]
    omega
  · refine .inr ⟨c, some, stands, ?_⟩
    obtain ⟨k, -, -, above, -⟩ := stands
    rw [h.periods, if_pos (by omega)]
    omega

/-- Where the creep period stands to another period, and the number of periods. -/
theorem Built.creepsBefore_cases (h : Built dist vLimit accel p) {i : Nat} (other : p.creepPeriod ≠ some i) :
    (creepsBefore p i = 0 ∧ p.periods = p.nAccel + p.nCruise + (p.nAccel - 1))
      ∨ (creepsBefore p i = 0 ∧ i < p.nAccel + p.nCruise + p.nAccel ∧ p.periods = p.nAccel + p.nCruise + p.nAccel)
      ∨ (creepsBefore p i = 1 ∧ p.nAccel + p.nCruise + 1 < i ∧ p.periods = p.nAccel + p.nCruise + p.nAccel) := by
  rcases h.periods_cases with ⟨-, none, periods⟩ | ⟨c, some, ⟨k, k1, kn, -, -, place⟩, periods⟩
  · exact .inl ⟨by simp only [creepsBefore, none], periods⟩
  · have apart : c ≠ i := fun e => other (e ▸ some)
    simp only [creepsBefore, some]
    by_cases before : c < i
    · exact .inr (.inr ⟨if_pos before, by omega, periods⟩)
    · exact .inr (.inl ⟨if_neg before, by omega, periods⟩)

theorem planVelocity_eq (dist accel : Nat) (i : Nat) (one : p.nAccel ≠ 0) :
    planVelocity dist accel p i = if i ≤ p.nAccel then i * accel else if i ≤ p.nAccel + p.nCruise then p.vPeak
      else if p.creepPeriod = some i then p.creep
      else (p.nAccel - (i - p.nAccel - p.nCruise - creepsBefore p i)) * accel := by
  rw [planVelocity, if_neg one]
  rfl

/-- Table 4-2: the velocity of every period, rest included, is a number of steps or that of the creep. -/
theorem Built.velocity_eq (h : Built dist vLimit accel p) (i : Nat) :
    velocityAt dist accel p i = if p.creepPeriod = some i then p.creep else steps p i * accel := by
  have one := h.pos
  rw [velocityAt, planVelocity_eq dist accel i (by omega)]
  by_cases creep : p.creepPeriod = some i
  · rcases h.periods_cases with ⟨-, none, -⟩ | ⟨c, some, stands, periods⟩
    · rw [none] at creep; cases creep
    · obtain rfl : c = i := Option.some.inj (some.symm.trans creep)
      have after := stands.after
      obtain ⟨k, k1, kn, -, -, place⟩ := stands
      rw [if_pos (by omega), if_neg (by omega), if_neg (by omega), if_pos creep, if_pos creep]
  · have placed := h.creepsBefore_cases creep
    have of_steps {n m : Nat} (e : n = m) : n * accel = m * accel := congrArg (· * accel) e
    rw [if_neg creep, if_neg creep, steps, h.peak]
    split_ifs
    · exact of_steps (by omega)
    · exact of_steps (by omega)
    · exact of_steps (by omega)
    · exact (Nat.zero_mul accel).symm.trans (of_steps (by omega))

/-! The sum of the velocities (R68). -/

/-- The velocities of a rise to `n + 1` steps and of the fall after it. -/
theorem sum_rise_fall (accel n : Nat) :
    (∑ i ∈ Finset.range (n + 1), (i + 1) * accel) + ∑ i ∈ Finset.range n, (n + 1 - (i + 1)) * accel = accel * (n + 1) ^ 2 := by
  induction n with
  | zero => simp
  | succ n ih =>
    rw [Finset.sum_range_succ, Finset.sum_range_succ' (n := n) (f := fun i => (n + 1 + 1 - (i + 1)) * accel)]
    have shift (i : Nat) : n + 1 + 1 - (i + 1 + 1) = n + 1 - (i + 1) := by omega
    simp only [shift, Nat.zero_add, Nat.add_sub_cancel]
    linear_combination ih

/-- Periods in a row, none of them the creep period. -/
theorem Built.sum_steps (h : Built dist vLimit accel p) {n off : Nat} (g : Nat → Nat)
    (e : ∀ i < n, p.creepPeriod ≠ some (off + i + 1) ∧ steps p (off + i + 1) = g i) :
    ∑ i ∈ Finset.range n, velocityAt dist accel p (off + i + 1) = ∑ i ∈ Finset.range n, g i * accel :=
  Finset.sum_congr rfl fun i m => by
    obtain ⟨other, e⟩ := e i (Finset.mem_range.1 m)
    rw [h.velocity_eq, if_neg other, e]

/-- R67: the velocities of the rise and of the cruise. -/
theorem Built.sum_cruise (h : Built dist vLimit accel p) :
    ∑ i ∈ Finset.range (p.nAccel + p.nCruise), velocityAt dist accel p (i + 1)
      = (∑ i ∈ Finset.range p.nAccel, (i + 1) * accel) + p.nCruise * (p.nAccel * accel) := by
  have early {i : Nat} (l : i < p.nAccel + p.nCruise) :
      p.creepPeriod ≠ some (i + 1) ∧ steps p (i + 1) = min (i + 1) p.nAccel := by
    rcases h.periods_cases with ⟨-, none, -⟩ | ⟨c, some, stands, -⟩
    · rw [steps, creepsBefore, none]
      exact ⟨nofun, by dsimp only; omega⟩
    · have after := stands.after
      rw [steps, creepsBefore, some]
      exact ⟨fun e => by have := Option.some.inj e; omega, by dsimp only; split <;> omega⟩
  rw [Finset.sum_range_add]
  congr 1
  · have rise := h.sum_steps (off := 0) (n := p.nAccel) (· + 1) fun i l => by
      rw [Nat.zero_add]
      exact ⟨(early (by omega)).1, by rw [(early (by omega)).2]; omega⟩
    simpa only [Nat.zero_add] using rise
  · rw [h.sum_steps (fun _ => p.nAccel) fun i l => ⟨(early (by omega)).1, by rw [(early (by omega)).2]; omega⟩,
      Finset.sum_const, Finset.card_range, smul_eq_mul]

/-- R68: the velocities of the fall, and of the creep within it. -/
theorem Built.sum_fall (h : Built dist vLimit accel p) :
    ∑ i ∈ Finset.range (p.periods - (p.nAccel + p.nCruise)), velocityAt dist accel p (p.nAccel + p.nCruise + i + 1)
      = (∑ i ∈ Finset.range (p.nAccel - 1), (p.nAccel - (i + 1)) * accel) + p.creep := by
  rcases h.periods_cases with ⟨zero, none, periods⟩ | ⟨c, some, ⟨k, k1, kn, -, -, place⟩, periods⟩
  · rw [periods, Nat.add_sub_cancel_left, zero, Nat.add_zero]
    exact h.sum_steps _ fun i l => by
      rw [steps, creepsBefore, none]
      exact ⟨nofun, by dsimp only; omega⟩
  · have before := h.sum_steps (off := p.nAccel + p.nCruise) (n := p.nAccel - k) (fun i => p.nAccel - (i + 1)) fun i l => by
      rw [steps, creepsBefore, some]
      exact ⟨fun e => by have := Option.some.inj e; omega, by dsimp only; split <;> omega⟩
    have behind := h.sum_steps (off := c) (n := k - 1) (fun i => p.nAccel - (p.nAccel - k + i + 1)) fun i l => by
      rw [steps, creepsBefore, some]
      exact ⟨fun e => by have := Option.some.inj e; omega, by dsimp only; split <;> omega⟩
    have creep : velocityAt dist accel p c = p.creep := by rw [h.velocity_eq, if_pos some]
    have fall := Finset.sum_range_add (fun i => (p.nAccel - (i + 1)) * accel) (p.nAccel - k) (k - 1)
    rw [show p.nAccel - k + (k - 1) = p.nAccel - 1 by omega] at fall
    have split := Finset.sum_range_add (fun i => velocityAt dist accel p (p.nAccel + p.nCruise + i + 1)) (p.nAccel - k + 1) (k - 1)
    rw [Finset.sum_range_succ, show p.nAccel - k + 1 + (k - 1) = p.nAccel by omega] at split
    rw [periods, Nat.add_sub_cancel_left, split, fall, before, ← place, creep, Nat.add_right_comm, ← behind]
    congr 2
    refine Finset.sum_congr rfl fun i _ => congrArg _ (by omega)

/-- R68: the velocities of periods 1 to N add up to the distance. -/
theorem Built.sum_eq (h : Built dist vLimit accel p) :
    ((List.range p.periods).map fun i => velocityAt dist accel p (i + 1)).sum = dist := by
  have one := h.pos
  have total := sum_rise_fall accel (p.nAccel - 1)
  have shares := h.shares
  have last : p.periods = p.nAccel + p.nCruise + (p.periods - (p.nAccel + p.nCruise)) := by
    rcases h.periods_cases with ⟨-, -, periods⟩ | ⟨-, -, -, periods⟩ <;> omega
  have list : ((List.range p.periods).map fun i => velocityAt dist accel p (i + 1)).sum
      = ∑ i ∈ Finset.range p.periods, velocityAt dist accel p (i + 1) := rfl
  rw [Nat.sub_add_cancel one] at total
  rw [h.peak] at shares
  rw [list, last, Finset.sum_range_add, h.sum_cruise, h.sum_fall]
  omega

/-! The limit and the acceleration (R67, R68). -/

/-- R67: from one period to the next the number of steps changes by one at most. -/
theorem steps_succ (h : Built dist vLimit accel p) {i : Nat} (now : p.creepPeriod ≠ some i) (next : p.creepPeriod ≠ some (i + 1)) :
    steps p (i + 1) ≤ steps p i + 1 ∧ steps p i ≤ steps p (i + 1) + 1 := by
  have a := h.creepsBefore_cases now
  have b := h.creepsBefore_cases next
  have same : creepsBefore p (i + 1) = creepsBefore p i := by
    unfold creepsBefore
    cases e : p.creepPeriod with
    | none => rfl
    | some c =>
      have apart : c ≠ i := fun x => now (x ▸ e)
      dsimp only
      split_ifs <;> omega
  unfold steps
  omega

/-- R68: the creep velocity lies within one step of the velocities before and after it. -/
theorem Built.creep_between (h : Built dist vLimit accel p) {c : Nat} (some : p.creepPeriod = some c) :
    ∃ k, (k - 1) * accel < p.creep ∧ p.creep ≤ k * accel ∧ k * accel = (k - 1) * accel + accel
      ∧ velocityAt dist accel p (c - 1) = k * accel ∧ velocityAt dist accel p (c + 1) = (k - 1) * accel := by
  rcases h.periods_cases with ⟨-, none, -⟩ | ⟨c', some', ⟨k, k1, kn, low, high, place⟩, periods⟩
  · rw [none] at some; cases some
  · obtain rfl : c' = c := Option.some.inj (some'.symm.trans some)
    refine ⟨k, low, high, by rw [← Nat.succ_mul]; congr 1; omega, ?_, ?_⟩
    · rw [h.velocity_eq, if_neg (fun e => by have := Option.some.inj (some.symm.trans e); omega), steps, creepsBefore, some]
      dsimp only
      rw [if_neg (by omega)]
      congr 1
      omega
    · rw [h.velocity_eq, if_neg (fun e => by have := Option.some.inj (some.symm.trans e); omega), steps, creepsBefore, some]
      dsimp only
      rw [if_pos (by omega)]
      congr 1
      omega

/-- R67, R68: no velocity differs from the one before by more than the acceleration. -/
theorem Built.velocity_slope (h : Built dist vLimit accel p) (i : Nat) :
    velocityAt dist accel p (i + 1) ≤ velocityAt dist accel p i + accel
      ∧ velocityAt dist accel p i ≤ velocityAt dist accel p (i + 1) + accel := by
  by_cases now : p.creepPeriod = some i
  · obtain ⟨k, low, high, step, -, next⟩ := h.creep_between now
    rw [next, h.velocity_eq i, if_pos now]
    omega
  · by_cases next : p.creepPeriod = some (i + 1)
    · obtain ⟨k, low, high, step, before, -⟩ := h.creep_between next
      rw [Nat.add_sub_cancel] at before
      rw [before, h.velocity_eq (i + 1), if_pos next]
      omega
    · obtain ⟨up, down⟩ := steps_succ h now next
      rw [h.velocity_eq, h.velocity_eq, if_neg now, if_neg next, ← Nat.succ_mul, ← Nat.succ_mul]
      exact ⟨Nat.mul_le_mul_right accel up, Nat.mul_le_mul_right accel down⟩

/-- R67: no velocity exceeds the limit. -/
theorem Built.velocity_le (h : Built dist vLimit accel p) (i : Nat) : velocityAt dist accel p i ≤ vLimit := by
  have peak : p.nAccel * accel ≤ vLimit := h.limit
  have creep := h.creep_lt
  rw [h.peak] at creep
  rw [h.velocity_eq]
  split
  · omega
  · exact (Nat.mul_le_mul_right accel ((Nat.min_le_right _ _).trans (Nat.sub_le _ _))).trans peak

/-- Settles O48: a distance of 0 or shorter than the acceleration at once, and the others by what the procedure builds (`plan_built`). -/
theorem profileProcedure : Obligations.ProfileProcedure := by
  intro dist vLimit accel pos le p v
  have zero (e : dist = 0) : p = ⟨0, 0, 0, 0, none, 0⟩ := if_pos e
  by_cases long : accel ≤ dist
  · have h : Built dist vLimit accel p := plan_built pos le long
    exact ⟨fun e => by omega, fun _ short => by omega, fun _ => ⟨h.pos, h.limit, h.bound, h.largest, h.peak, h.shares, h.creep_lt,
      h.periods⟩, h.sum_eq, fun i => ⟨h.velocity_le i, h.velocity_slope i⟩⟩
  · rcases Nat.eq_zero_or_pos dist with e | some
    · have v0 (i : Nat) : v i = 0 := if_neg (by rw [zero e]; dsimp only; omega)
      refine ⟨fun _ => by rw [zero e], fun _ _ => by omega, fun h => absurd h long, ?_, fun i => ?_⟩
      · rw [zero e, e]; rfl
      · rw [v0, v0]; omega
    · have one : p = ⟨0, 0, 0, 0, none, 1⟩ := plan_short some (by omega)
      have v1 (i : Nat) : v i = if i = 1 then dist else 0 := by
        have e : v i = if 1 ≤ i ∧ i ≤ 1 then dist else 0 := by simp only [v, one]; rfl
        rw [e]
        split_ifs <;> omega
      refine ⟨fun e => by omega, fun _ _ => by rw [one]; exact ⟨rfl, rfl⟩, fun h => absurd h long, ?_, fun i => ?_⟩
      · simp only [v1, one]; rfl
      · rw [v1, v1]
        split_ifs <;> omega

end Sys2Proof.MotionProfiles
end

section
/-! The starts of local profiles, the start of homing and its expiry (R73, R75, R82 to R84, R87 to R90). -/

namespace Sys2Proof.MotionProfiles

open Sys2Proof.Machine Sys2Proof.Safety Sys2Proof.Claims Sys2Proof.StepTime Sys2Proof.SectionLine

/-! The end of a command. -/

/-- What follows from a change at the end of its command, and that nothing does where the self-clearing causes have settled. -/
theorem close_leads (u : State) : Leads u u.close := by
  refine ⟨close_follows u, fun settled => ?_⟩
  rw [close_settled u settled]
  rfl

/-- Two states agree on what the causes are and on everything that the self-clearing ones are judged by. -/
structure SameJudged (s u : State) : Prop where
  har : u.har = s.har
  state : u.ixs.state = s.ixs.state
  timer : u.lpt.foreignTimer = s.lpt.foreignTimer
  items : u.items = s.items
  rst : u.rst = s.rst
  ltu : u.ltu = s.ltu
  peers : u.peers = s.peers

theorem SameJudged.settled {s u : State} (h : SameJudged s u) (settled : CausesSettled s) : CausesSettled u := fun c k => by
  have offline : u.offline = s.offline := by rw [State.offline, h.state]; rfl
  rw [h.har, condition_congr offline h.timer h.items (by rw [h.rst]) (by rw [h.rst]) h.ltu h.peers k]
  exact settled c k

theorem SameJudged.trans {s u v : State} (h : SameJudged s u) (k : SameJudged u v) : SameJudged s v :=
  ⟨k.har.trans h.har, k.state.trans h.state, k.timer.trans h.timer, k.items.trans h.items, k.rst.trans h.rst, k.ltu.trans h.ltu,
    k.peers.trans h.peers⟩

/-- R148: what a change leads to is all that it does where the self-clearing causes had settled before it. -/
theorem leads_settled {s u t : State} (leads : Leads u t) (same : SameJudged s u) (settled : CausesSettled s) :
    t.ssv = u.ssv ∧ t.pgn = u.pgn := by
  rw [leads.2 (same.settled settled)]
  exact ⟨rfl, rfl⟩

/-! The shuttle. -/

theorem moveShuttle_eq {s : State} (st : ShuttleState) (free : s.ssv.shuttle ≠ .halted) :
    s.moveShuttle st = { s with ssv := { s.ssv with shuttle := st } } := if_neg free

/-- R89: a failed homing leaves a shuttle that is not HALTED in UNHOMED. -/
theorem failHoming_eq {s : State} (free : s.ssv.shuttle ≠ .halted) :
    s.failHoming = { s with ssv := { s.ssv with
      homingTimer := none, homeCheckTimer := none, homeCheck := false, homingStage := .none, shuttle := .unhomed } } :=
  moveShuttle_eq (s := { s with ssv := s.ssv.endHoming }) _ free

/-- R87 to R90: the reposition is over, its target and its use forgotten. -/
def RepositionOver (s : State) : State := { s with ssv := { s.ssv with repositionTarget := none, repositionUse := none } }

section uses

variable {s : State}

theorem repositionCompleted_toPitch (use : s.ssv.repositionUse = some .toPitch) :
    s.repositionCompleted = (RepositionOver s).moveShuttle .atEnd := by
  simp only [State.repositionCompleted, use]
  rfl

theorem repositionCompleted_toStop (use : s.ssv.repositionUse = some .toStop) (free : s.ssv.shuttle ≠ .halted) :
    s.repositionCompleted = { RepositionOver s with
      ssv := { (RepositionOver s).ssv with shuttle := .haltedMid }
      ixs := if s.ixs.state = .resumeWait ∧ s.ixs.resumeStep = .repositioning then { s.ixs with resumeStep := .awaitWord }
        else s.ixs } := by
  have e : s.repositionCompleted =
      let t := (RepositionOver s).moveShuttle .haltedMid
      if t.ixs.state = .resumeWait ∧ t.ixs.resumeStep = .repositioning then
        { t with ixs := { t.ixs with resumeStep := .awaitWord } } else t := by
    simp only [State.repositionCompleted, use]
    rfl
  rw [e, moveShuttle_eq (s := RepositionOver s) _ free]
  by_cases waits : s.ixs.state = .resumeWait ∧ s.ixs.resumeStep = .repositioning
  · rw [if_pos waits]
    exact if_pos waits
  · rw [if_neg waits]
    exact if_neg waits

theorem repositionCompleted_failed (use : s.ssv.repositionUse = some .toHome ∨ s.ssv.repositionUse = some .offCam)
    (stage : s.ssv.homingStage = .repositionFailed) : s.repositionCompleted = (RepositionOver s).failHoming := by
  rcases use with use | use <;> simp only [State.repositionCompleted, use, stage] <;> rfl

theorem repositionCompleted_toHome (use : s.ssv.repositionUse = some .toHome) (stage : s.ssv.homingStage ≠ .repositionFailed) :
    s.repositionCompleted = State.startHomeCheck (if s.ssv.homingStage = .toZero
      then { RepositionOver s with ssv := { (RepositionOver s).ssv with homingStage := .check } } else RepositionOver s) := by
  simp only [State.repositionCompleted, RepositionOver, use]
  cases g : s.ssv.homingStage
  case repositionFailed => exact absurd g stage
  all_goals rfl

theorem repositionCompleted_offCam (use : s.ssv.repositionUse = some .offCam) (stage : s.ssv.homingStage ≠ .repositionFailed) :
    s.repositionCompleted = (RepositionOver s).offCamEnded := by
  simp only [State.repositionCompleted, RepositionOver, use]

/-- R87 to R90: a reposition completes by what it was for, short of one that has not left the home cam. -/
theorem repositionCompleted_eq (use : s.ssv.repositionUse ≠ none) (free : s.ssv.shuttle ≠ .halted) (off : ¬StillOnCam s) :
    s.repositionCompleted = RepositionDone s := by
  have failed (stage : s.ssv.homingStage = .repositionFailed) (e) : s.repositionCompleted = _ :=
    (repositionCompleted_failed e stage).trans (failHoming_eq (s := RepositionOver s) free)
  cases e : s.ssv.repositionUse with
  | none => exact absurd e use
  | some u =>
    simp only [RepositionDone, e, Option.some.injEq]
    cases u with
    | toPitch =>
      rw [if_pos rfl]
      exact (repositionCompleted_toPitch e).trans (moveShuttle_eq _ free)
    | toStop =>
      rw [if_neg nofun, if_pos rfl]
      exact repositionCompleted_toStop e free
    | toHome =>
      rw [if_neg nofun, if_neg nofun]
      by_cases stage : s.ssv.homingStage = .repositionFailed
      · rw [if_pos stage]
        exact failed stage (.inl e)
      · rw [if_neg stage, if_pos rfl, repositionCompleted_toHome e stage]
        split_ifs <;> rfl
    | offCam =>
      rw [if_neg nofun, if_neg nofun]
      by_cases stage : s.ssv.homingStage = .repositionFailed
      · rw [if_pos stage]
        exact failed stage (.inr e)
      · have left : ¬(RepositionOver s).inputs.home = true := fun on => off ⟨e, stage, on⟩
        rw [if_neg stage, if_neg nofun, if_pos rfl, repositionCompleted_offCam e stage, State.offCamEnded, if_neg left]
        rfl

end uses

/-- What a reposition's completion leaves as it was. -/
theorem repositionDone_judged (s : State) : SameJudged s (RepositionDone s) := by
  unfold RepositionDone
  dsimp only
  split_ifs
  all_goals exact ⟨rfl, rfl, rfl, rfl, rfl, rfl, rfl⟩

/-! The start of a local profile (R73, R75). -/

theorem exec_localProfileStart {s : State} (h : s.awaitsLocal = true) : exec .localProfileStart s = .next s.startLocal.close :=
  if_pos h

/-- R73: the local profile once its wait is over. -/
def LocalBegun (p : Pgn) : Pgn := { p with begun := true, phase := .running, localTimer := some 1000 }

/-- R73: a profile of at least one period, and a homing run, go on. -/
theorem startLocal_runs {s : State} (h : s.awaitsLocal = true) (some : s.pgn.kind = .homing ∨ 1 ≤ s.pgn.periods) :
    s.startLocal = { s with pgn := LocalBegun s.pgn } := by
  have goes : ¬(s.pgn.kind ≠ .homing ∧ s.pgn.periods = 0) := by
    rintro ⟨kind, none⟩
    rcases some with e | e
    · exact kind e
    · omega
  rw [State.startLocal, if_pos h]
  exact if_neg goes

/-- R75: a return or reposition of no distance completes. -/
theorem startLocal_completes {s : State} (h : s.awaitsLocal = true) (kind : s.pgn.kind = .ret ∨ s.pgn.kind = .reposition)
    (none : s.pgn.periods = 0) : s.startLocal
      = { s with pgn := { s.pgn with begun := true, phase := .idle, localTimer := Option.none } }.localCompleted := by
  have ends : s.pgn.kind ≠ .homing ∧ s.pgn.periods = 0 := ⟨by rcases kind with e | e <;> rw [e] <;> decide, none⟩
  have own : s.pgn.kind.common = false := by rcases kind with e | e <;> rw [e] <;> rfl
  rw [State.startLocal, if_pos h]
  refine (if_pos ends).trans ?_
  simp only [Pgn.complete, own, Bool.false_eq_true, if_false]

/-- Settles O47: a profile that runs, or the completion at once of a return (`startHomeCheck`) or of a reposition
(`repositionCompleted_eq`), each with what follows at the end of the command. -/
theorem localProfileStarts : Obligations.LocalProfileStarts := by
  intro s waits g u
  have run (h : waits) := exec_localProfileStart ((awaitsLocal_iff s).2 h)
  refine ⟨fun no => if_neg (mt (awaitsLocal_iff s).1 no), fun h some => ⟨_, run h, ?_⟩, fun h kind none => ⟨_, run h, ?_⟩,
    fun h kind none use free off => ⟨_, run h, ?_⟩⟩
  · rw [startLocal_runs ((awaitsLocal_iff s).2 h) some]
    have leads := close_leads { s with pgn := LocalBegun s.pgn }
    exact ⟨leads, fun settled => (leads_settled (s := s) leads ⟨rfl, rfl, rfl, rfl, rfl, rfl, rfl⟩ settled).2⟩
  · have done : u.localCompleted = u.startHomeCheck := by
      have e : u.pgn.kind = .ret := kind
      rw [State.localCompleted, e]
    rw [startLocal_completes ((awaitsLocal_iff s).2 h) (.inl kind) none, done]
    refine ⟨close_leads _, fun settled => ?_⟩
    obtain ⟨ssv, pgn⟩ := leads_settled (s := s) (close_leads u.startHomeCheck) ⟨rfl, rfl, rfl, rfl, rfl, rfl, rfl⟩ settled
    rw [ssv, pgn]
    exact ⟨rfl, rfl, rfl⟩
  · have done : u.localCompleted = u.repositionCompleted := by
      have e : u.pgn.kind = .reposition := kind
      rw [State.localCompleted, e]
    rw [startLocal_completes ((awaitsLocal_iff s).2 h) (.inr kind) none, done, repositionCompleted_eq (s := u) use free off]
    exact close_leads _

/-! The preparation of local profiles (R73, R82 to R84). -/

/-- R73: a local origin is the next but one multiple of 1,000 µs of line time, or the next where line time is one. -/
theorem localWait_spec (t : LineTime) : 1000 ≤ localWait t ∧ localWait t ≤ 1999 ∧ (t.toNat + localWait t) % 1000 = 0
    ∧ localOrigin t = t + BitVec.ofNat 32 (localWait t) := by
  have wait : localWait t = (t.toNat + 999) / 1000 * 1000 + 1000 - t.toNat := rfl
  refine ⟨by omega, by omega, by omega, BitVec.eq_of_toNat_eq ?_⟩
  rw [localOrigin, BitVec.toNat_add, BitVec.toNat_ofNat, BitVec.toNat_ofNat, roundUpMs]
  omega

/-- R82, R83: a return or a reposition prepared in `s`. -/
theorem prepareMove_prepared (s : State) (kind : PgnKind) (start target : Int) (vLimit : Nat) :
    PreparedLocal s (s.pgn.prepareMove kind start target vLimit s.items.accel s.ltu.lineTime) kind
      ((target - start).natAbs * 256) vLimit start (decide (start < target)) := by
  obtain ⟨least, most, multiple, origin⟩ := localWait_spec s.ltu.lineTime
  exact ⟨⟨rfl, rfl, rfl, rfl, rfl, rfl, rfl, rfl, rfl, rfl, rfl, rfl, rfl⟩, rfl, rfl, rfl, rfl,
    localWait s.ltu.lineTime, least, most, multiple, rfl, origin⟩

/-- R84: a homing run prepared in `s`. -/
theorem prepareHoming_prepared (s : State) (start : Int) (vLimit : Nat) :
    PreparedLocal s (s.pgn.prepareHoming start vLimit s.items.accel s.ltu.lineTime) .homing 0 vLimit start false := by
  obtain ⟨least, most, multiple, origin⟩ := localWait_spec s.ltu.lineTime
  exact ⟨⟨rfl, rfl, rfl, rfl, rfl, rfl, rfl, rfl, rfl, rfl, rfl, rfl, rfl⟩, rfl, rfl, rfl, rfl,
    localWait s.ltu.lineTime, least, most, multiple, rfl, origin⟩

/-! The start and the expiry of homing (R88, R89). -/

theorem exec_homingStart {s : State} (h : HomingStarts s) : exec .homingStart s = .next s.startHoming :=
  if_pos ((mayHome_iff s).2 h)

/-- R89: what the expiry of the homing timer leaves, short of its cause. -/
def HomingGivenUp (s : State) : State := { s with ssv := { s.ssv with homingTimer := none } }.giveUpHoming

/-- R89: the expiry by the stage of the homing: a creep ramps down from the period after the one in progress; a ramp and a reposition go on,
to fail at their end; a home check fails at once. -/
theorem homingGivenUp_cases (s : State) :
    let w := { s.ssv with homingTimer := none }
    (s.ssv.homingStage = .creep → HomingGivenUp s = { s with
        ssv := { w with homingStage := .rampFailed }
        pgn := { s.pgn with rampFrom := some (if s.pgn.begun then s.pgn.counter + 2 else 1) } })
      ∧ (s.ssv.homingStage = .edgeRamp → HomingGivenUp s = { s with ssv := { w with homingStage := .rampFailed } })
      ∧ (s.ssv.homingStage = .offCam ∨ s.ssv.homingStage = .toZero →
          HomingGivenUp s = { s with ssv := { w with homingStage := .repositionFailed } })
      ∧ (s.ssv.homingStage = .check → s.ssv.shuttle = .homing → HomingGivenUp s = { s with ssv := { w with
          homeCheckTimer := none, homeCheck := false, homingStage := .none, shuttle := .unhomed } }) := by
  unfold HomingGivenUp State.giveUpHoming
  refine ⟨fun stage => ?_, fun stage => ?_, fun stage => ?_, fun stage homing => ?_⟩
  · simp only [stage]
    rfl
  · simp only [stage]
  · rcases stage with stage | stage <;> simp only [stage]
  · simp only [stage]
    refine (failHoming_eq ?_).trans ?_
    · rw [homing]; decide
    · rfl

/-- R89: the expiry leaves everything but the drive and the profile, its timer stopped. -/
theorem homingGivenUp_eq (s : State) : ∃ v p, HomingGivenUp s = { s with ssv := v, pgn := p } ∧ v.homingTimer = none := by
  obtain ⟨creep, edgeRamp, moves, -⟩ := homingGivenUp_cases s
  cases stage : s.ssv.homingStage
  case creep => exact ⟨_, _, creep stage, rfl⟩
  case edgeRamp => exact ⟨_, _, edgeRamp stage, rfl⟩
  case offCam => exact ⟨_, _, moves (.inl stage), rfl⟩
  case toZero => exact ⟨_, _, moves (.inr stage), rfl⟩
  case check =>
    have failed : HomingGivenUp s = { s with ssv := { s.ssv with homingTimer := none } }.failHoming := by
      simp only [HomingGivenUp, State.giveUpHoming, stage]
    rw [failed, State.failHoming]
    rcases moveShuttle_cases { s with ssv := { s.ssv with homingTimer := none }.endHoming } .unhomed with ⟨-, e⟩ | ⟨-, e⟩
    all_goals exact ⟨_, _, e, rfl⟩
  all_goals
    exact ⟨{ s.ssv with homingTimer := none }, s.pgn, by simp only [HomingGivenUp, State.giveUpHoming, stage], rfl⟩

theorem exec_homingTimerExpiry {s : State} (runs : s.ssv.homingTimer ≠ none) :
    exec .homingTimerExpiry s = .next ((HomingGivenUp s).raise .returnFault).close :=
  if_pos (Option.isSome_iff_ne_none.2 runs)

/-- R94, R148: a latched cause that is raised in `u` and does not halt the shuttle anew leaves the drive and the profile as they were. -/
theorem raise_close_drive {s u : State} {c : Cause} (same : SameJudged s u) (latched : c.latched = true) (on : s.ixs.state ≠ .offline)
    (every : EveryCause s) (level : 1 ≤ s.har.level c) (settled : CausesSettled s)
    (calm : s.har.level c ≠ 7 ∨ s.har.isPending c = true) :
    (u.raise c).close.ssv = u.ssv ∧ (u.raise c).close.pgn = u.pgn := by
  have every' : EveryCause u := by unfold EveryCause; rw [same.har]; exact every
  have follows := raise_close_follows u c latched
  refine follows.drive every' fun d seven => ?_
  by_cases e : d = c
  · subst e
    rw [same.har] at seven ⊢
    rw [raise_close_pending u d (by rw [same.state]; exact on) (by rw [same.har]; exact level) every' latched]
    rcases calm with no | yes
    · exact absurd seven no
    · exact yes.symm
  · exact follows.quiet (same.settled settled) d (by simpa using e)

/-- Settles O42: the two starts by what they prepare (`prepareHoming_prepared`, `prepareMove_prepared`); the expiry stage by stage, its cause
raised in the state that the stage leaves (`raise_close_follows`, `raise_close_drive`). -/
theorem homingStartsAndExpires : Obligations.HomingStartsAndExpires := by
  intro s v x
  refine ⟨fun no => if_neg (mt (mayHome_iff s).1 no), fun h off => ?_, fun h on => ?_, fun runs on levels => ?_⟩
  · refine ⟨_, ?_, prepareHoming_prepared s x _⟩
    rw [exec_homingStart h, State.startHoming]
    exact congrArg _ (if_neg (by rw [off]; nofun))
  · have prepared := prepareMove_prepared s .reposition x (x + 20000) s.items.homingSpeed
    rw [show x + 20000 - x = 20000 by omega, show decide (x < x + 20000) = true by simp] at prepared
    refine ⟨_, ?_, prepared⟩
    rw [exec_homingStart h, State.startHoming]
    exact congrArg _ (if_pos on)
  · obtain ⟨_, _, givenUp, stopped⟩ := homingGivenUp_eq s
    have same : SameJudged s (HomingGivenUp s) := by rw [givenUp]; exact ⟨rfl, rfl, rfl, rfl, rfl, rfl, rfl⟩
    have level : 1 ≤ s.har.level .returnFault := level_pos levels (by decide)
    have every : EveryCause (HomingGivenUp s) := by unfold EveryCause; rw [same.har]; exact levels.1
    have follows := raise_close_follows (HomingGivenUp s) .returnFault rfl
    refine ⟨_, exec_homingTimerExpiry runs, raise_close_pending _ _ (by rw [same.state]; exact on) (by rw [same.har]; exact level)
      every rfl, ?_, ?_⟩
    · have timer : (HomingGivenUp s).ssv.homingTimer = none := by rw [givenUp]; exact stopped
      rcases follows.timers.1 with e | e
      · exact e.trans timer
      · exact e
    · have ends {w : Ssv} {g : Pgn} (e : HomingGivenUp s = { s with ssv := w, pgn := g }) :
          Follows [.returnFault] { s with ssv := w, pgn := g } ((HomingGivenUp s).raise .returnFault).close
            ∧ (CausesSettled s → s.har.level .returnFault ≠ 7 ∨ s.har.isPending .returnFault = true →
              ((HomingGivenUp s).raise .returnFault).close.ssv = w ∧ ((HomingGivenUp s).raise .returnFault).close.pgn = g) := by
        refine ⟨e ▸ follows, fun settled calm => ?_⟩
        have kept := raise_close_drive same (c := .returnFault) rfl on levels.1 level settled calm
        rw [kept.1, kept.2, e]
        exact ⟨rfl, rfl⟩
      obtain ⟨creep, edgeRamp, moves, check⟩ := homingGivenUp_cases s
      exact ⟨fun h => ends (creep h), fun h => ends (edgeRamp h), fun h => ends (moves h), fun h homing => ends (check h homing)⟩

end Sys2Proof.MotionProfiles
end

section
/-! What a setpoint word brings about: its reports (R58, R63, R90, R98) and the halt at a following error (R94, R97). -/

namespace Sys2Proof.MotionProfiles

open Sys2Proof.Machine Sys2Proof.Safety Sys2Proof.Claims Sys2Proof.StepTime Sys2Proof.SectionLine

/-! The reports of a word. -/

variable {s : State}

/-- R98: in position at the last word. -/
def Near (s : State) : Prop := s.ssv.drive = true ∧ s.ssv.followingError.natAbs ≤ s.items.inposWindow

/-- R58: LOWERING is in position. -/
def LowersNow (s : State) : Prop :=
  s.ixs.state = .lowering ∧ s.ixs.step = .inPosition ∧ s.ssv.shuttle = .atEnd ∧ Near s

/-- R63: RESUME_WAIT is at its stop setpoint. -/
def OffersNow (s : State) (pos : Nat) : Prop :=
  s.ixs.state = .resumeWait ∧ s.ixs.resumeStep = .awaitWord ∧ s.ssv.drive = true
    ∧ s.pgn.stopPosition = some pos ∧ (s.ssv.encoder.toInt - ((pos / 256 : Nat) : Int)).natAbs ≤ s.items.inposWindow

/-- R90: the home check passes. -/
def PassesNow (s : State) : Prop := s.ssv.homeCheck = true ∧ s.inputs.home = true ∧ Near s

theorem inPosition_iff (s : State) : s.inPosition = true ↔ Near s := by
  simp only [State.inPosition, Near, Bool.and_eq_true, decide_eq_true_eq]

theorem lowersNow_iff (s : State) : (s.ixs.state = .lowering ∧ s.ixs.step = .inPosition ∧ s.ssv.shuttle = .atEnd
    ∧ s.inPosition = true) ↔ LowersNow s := by
  rw [inPosition_iff]
  rfl

theorem offersNow_iff (s : State) : (s.ixs.state = .resumeWait ∧ s.ixs.resumeStep = .awaitWord ∧ s.ssv.drive = true
    ∧ s.atStopSetpoint = true) ↔ ∃ pos, OffersNow s pos := by
  unfold OffersNow State.atStopSetpoint Pgn.stopSetpoint
  cases s.pgn.stopPosition with
  | none => simp
  | some pos =>
    refine ⟨fun ⟨state, step, drive, near⟩ => ⟨pos, state, step, drive, rfl, of_decide_eq_true near⟩, ?_⟩
    rintro ⟨_, state, step, drive, ⟨⟩, near⟩
    exact ⟨state, step, drive, decide_eq_true near⟩

theorem passesNow_iff (s : State) : (s.ssv.homeCheck = true ∧ s.inputs.home = true ∧ s.inPosition = true) ↔ PassesNow s := by
  rw [inPosition_iff]
  rfl

/-- R58, R63, R90: the three reports one after another. -/
theorem reportWord_eq (s : State) [Decidable (LowersNow s)] [∀ u, Decidable (∃ pos, OffersNow u pos)] [DecidablePred PassesNow] :
    s.reportWord =
      let u := if LowersNow s then s.lowerPallet else s
      let v := if ∃ pos, OffersNow u pos then u.offerResume else u
      if PassesNow v then v.passHomeCheck else v := by
  unfold State.reportWord
  simp only [lowersNow_iff, offersNow_iff, passesNow_iff]

theorem lowersNow_not_offers {pos : Nat} (h : LowersNow s) : ¬OffersNow s pos := fun k => by
  have e := h.1.symm.trans k.1
  cases e

/-- A word that finds nothing to report. -/
theorem reportWord_none (lowers : ¬LowersNow s) (offers : ∀ pos, ¬OffersNow s pos) (passes : ¬PassesNow s) : s.reportWord = s := by
  classical
  rw [reportWord_eq]
  simp only [if_neg lowers, if_neg (not_exists.2 offers), if_neg passes]

theorem reportWord_passes (lowers : ¬LowersNow s) (offers : ∀ pos, ¬OffersNow s pos) (passes : PassesNow s) :
    s.reportWord = s.passHomeCheck := by
  classical
  rw [reportWord_eq]
  simp only [if_neg lowers, if_neg (not_exists.2 offers), if_pos passes]

theorem reportWord_offers {pos : Nat} (offers : OffersNow s pos) (passes : ¬PassesNow s) : s.reportWord = s.offerResume := by
  classical
  have lowers : ¬LowersNow s := fun h => lowersNow_not_offers h offers
  have still : ¬PassesNow s.offerResume := passes
  rw [reportWord_eq]
  simp only [if_neg lowers, if_pos (⟨pos, offers⟩ : ∃ pos, OffersNow s pos), if_neg still]

/-- R58: the lift once it has been dropped in LOWERING. -/
def PalletLowered (s : State) : State := { s with
  ssv := { s.ssv with lift := false, liftState := .falling }
  ixs := { s.ixs with step := .liftDown, lowerExpired := none, loweringTimer := some (Timeout s.items.lowerTimeout) } }

/-- R58, R91: the lift that is not DOWN yet falls. -/
theorem lowerPallet_eq (lift : s.ssv.liftState ≠ .down) : s.lowerPallet = PalletLowered s := by
  have falls : (if s.ssv.liftState = .down ∨ s.ssv.liftState = .falling then s.ssv.liftState else .falling) = LiftState.falling := by
    split
    case isTrue h => exact h.resolve_left lift
    case isFalse => rfl
  unfold State.lowerPallet Ssv.lowerLift
  rw [falls, timeout_eq]
  rfl

theorem reportWord_lowers (lowers : LowersNow s) (passes : ¬PassesNow s) (lift : s.ssv.liftState ≠ .down) :
    s.reportWord = PalletLowered s := by
  classical
  have offers : ¬∃ pos, OffersNow (PalletLowered s) pos := fun ⟨_, h⟩ => by
    have e := lowers.1.symm.trans h.1
    cases e
  have still : ¬PassesNow (PalletLowered s) := passes
  rw [reportWord_eq]
  simp only [if_pos lowers, lowerPallet_eq lift, if_neg offers, if_neg still]

/-- R90: the home check has passed, in a shuttle that is not HALTED. -/
def HomePassed (s : State) : State := { s with ssv := { s.ssv.endHoming with shuttle := .atHome } }

theorem homePassed_judged (s : State) : SameJudged s (HomePassed s) := ⟨rfl, rfl, rfl, rfl, rfl, rfl, rfl⟩

/-- R58, R63, R90, R98: everything that the reports of a word do. -/
theorem reportWord_reports (s : State) : WordReports s s.reportWord.close := by
  refine ⟨fun lowers offers passes => ?_, fun passes lowers offers free => ?_, fun lowers passes lift => ?_,
    fun pos offers passes => ?_⟩
  · rw [reportWord_none lowers offers passes]
    exact close_leads s
  · have passed : s.passHomeCheck = HomePassed s := moveShuttle_eq (s := { s with ssv := s.ssv.endHoming }) .atHome free
    have leads := close_leads (HomePassed s)
    rw [reportWord_passes lowers offers passes, passed]
    exact ⟨leads, fun settled => (leads_settled leads (homePassed_judged s) settled).1⟩
  · rw [reportWord_lowers lowers passes lift]
    exact close_leads _
  · have queued : s.offerResume = { s with ixs := { s.ixs with resumeStep := .none }
                                           lpt := s.lpt.enqueue (.resume s.ixs.index (pos / 256)) } := by
      rw [State.offerResume, Pgn.stopSetpoint, offers.2.2.2.1]
      rfl
    rw [reportWord_offers offers passes, queued]
    exact close_leads _

/-- R97, R98: with the drive dropped a word reports nothing. -/
theorem reportWord_dropped (dropped : s.ssv.drive = false) : s.reportWord = s := by
  have off (h : s.ssv.drive = true) : False := by rw [dropped] at h; cases h
  exact reportWord_none (fun h => off h.2.2.2.1) (fun _ h => off h.2.2.1) fun h => off h.2.2.1

theorem reportWord_nothingWaits (h : NothingWaits s) : s.reportWord = s := by
  obtain ⟨check, lowering, resume⟩ := h
  exact reportWord_none (fun h => lowering ⟨h.1, h.2.1⟩) (fun _ h => resume ⟨h.1, h.2.1⟩)
    fun h => by rw [PassesNow, check] at h; cases h.1

/-- R58: outside the in-position wait of LOWERING the reports of a word leave the profile and what the causes are judged by. -/
theorem reportWord_keeps (h : ¬(s.ixs.state = .lowering ∧ s.ixs.step = .inPosition)) :
    SameJudged s s.reportWord ∧ s.reportWord.pgn = s.pgn := by
  classical
  have lowers : ¬LowersNow s := fun k => h ⟨k.1, k.2.1⟩
  have offered : SameJudged s s.offerResume ∧ s.offerResume.pgn = s.pgn := ⟨⟨rfl, rfl, rfl, rfl, rfl, rfl, rfl⟩, rfl⟩
  have passed (u : State) : SameJudged u u.passHomeCheck ∧ u.passHomeCheck.pgn = u.pgn := by
    unfold State.passHomeCheck
    rcases moveShuttle_cases { u with ssv := u.ssv.endHoming } .atHome with ⟨-, e⟩ | ⟨-, e⟩ <;> rw [e]
    all_goals exact ⟨⟨rfl, rfl, rfl, rfl, rfl, rfl, rfl⟩, rfl⟩
  rw [reportWord_eq]
  simp only [if_neg lowers]
  split
  all_goals split
  · exact ⟨offered.1.trans (passed _).1, (passed _).2.trans offered.2⟩
  · exact offered
  · exact passed s
  · exact ⟨⟨rfl, rfl, rfl, rfl, rfl, rfl, rfl⟩, rfl⟩

end Sys2Proof.MotionProfiles
end

section
/-! The halt of the shuttle by a following error, to the end of the command (R94, R97, R149, R152). -/

namespace Sys2Proof.MotionProfiles

open Sys2Proof.Machine Sys2Proof.Safety Sys2Proof.Claims Sys2Proof.StepTime Sys2Proof.SectionLine

/-! A raising, and the drive. -/

/-- R94: the drive dropped and the shuttle HALTED. -/
def HaltedDrive (v : Ssv) : Ssv := { v.endHoming with drive := false, haltedFrom := some v.shuttle, shuttle := .halted }

theorem dropDrive_free {s : State} (free : s.ssv.shuttle ≠ .halted) :
    s.dropDrive.ssv = HaltedDrive s.ssv ∧ s.dropDrive.pgn = s.pgn.halt := by
  rw [State.dropDrive, if_neg free]
  exact ⟨rfl, rfl⟩

theorem dropDrive_dropped {s : State} (h : Dropped s) : s.dropDrive.ssv = s.ssv ∧ s.dropDrive.pgn = s.pgn := by
  obtain ⟨drive, shuttle⟩ := h
  rw [State.dropDrive, if_pos shuttle, ← drive]
  exact ⟨rfl, rfl⟩

/-- R94: what dropping the drive makes of it depends on the drive and the profile alone. -/
theorem dropDrive_congr {s u : State} (ssv : u.ssv = s.ssv) (pgn : u.pgn = s.pgn) :
    u.dropDrive.ssv = s.dropDrive.ssv ∧ u.dropDrive.pgn = s.dropDrive.pgn := by
  unfold State.dropDrive
  rw [ssv, pgn]
  split <;> exact ⟨rfl, rfl⟩

/-- R149: a raising that is taken drops the drive at level 7 and otherwise leaves it. -/
theorem raise_drive {s : State} {c : Cause} (taken : ¬(s.offline ∨ s.har.level c = 0 ∨ s.har.isPending c)) :
    (s.raise c).ssv = (if s.har.level c = 7 then s.dropDrive else s).ssv
      ∧ (s.raise c).pgn = (if s.har.level c = 7 then s.dropDrive else s).pgn := by
  rw [raise_taken s c taken]
  dsimp only
  have announced : ∀ t : State, (if 6 ≤ s.har.level c ∧ t.ixs.state.queuesStop then t.queueStop c.number else t).ssv = t.ssv
      ∧ (if 6 ≤ s.har.level c ∧ t.ixs.state.queuesStop then t.queueStop c.number else t).pgn = t.pgn := by
    intro t
    split <;> exact ⟨rfl, rfl⟩
  obtain ⟨ssv, pgn⟩ := announced { s with har := s.har.setPending c true }.announce
  rw [announce_ssv] at ssv
  rw [announce_pgn] at pgn
  split
  · exact dropDrive_congr ssv pgn
  · exact ⟨ssv, pgn⟩

/-- R94: a raising leaves a drive that is dropped already. -/
theorem raise_dropped {s : State} (c : Cause) (h : Dropped s) : (s.raise c).ssv = s.ssv ∧ (s.raise c).pgn = s.pgn := by
  by_cases taken : s.offline ∨ s.har.level c = 0 ∨ s.har.isPending c
  · rw [raise_ignored s c taken]
    exact ⟨rfl, rfl⟩
  · obtain ⟨ssv, pgn⟩ := raise_drive taken
    rw [ssv, pgn]
    split
    · exact dropDrive_dropped h
    · exact ⟨rfl, rfl⟩

/-- R152: a raising that is taken announces the pair anew. -/
theorem raise_announces {s : State} {c : Cause} (taken : ¬(s.offline ∨ s.har.level c = 0 ∨ s.har.isPending c)) :
    PairAnnounced (s.raise c) := by
  have pair : PairAnnounced { s with har := s.har.setPending c true }.announce := by
    unfold PairAnnounced
    rw [announce_pair]
    simp only [Har.pair, announce_causes]
  have kept : (s.raise c).har = { s with har := s.har.setPending c true }.announce.har := by
    rw [raise_taken s c taken]
    dsimp only
    split <;> split <;> simp only [dropDrive_har, State.queueStop, State.queueFrame]
  unfold PairAnnounced
  rw [kept]
  exact pair

/-! A shuttle that a pending cause of level 7 holds HALTED. -/

/-- R94: this cause of level 7 is pending, and the shuttle HALTED. -/
structure HeldBy (c : Cause) (s : State) : Prop where
  every : EveryCause s
  seven : s.har.level c = 7
  pending : s.har.isPending c = true
  dropped : Dropped s

/-- R155: while a cause of level 7 is pending, the end of another restarts nothing. -/
theorem unpend_held {c d : Cause} {s : State} (h : HeldBy c s) (other : c ≠ d) :
    (s.unpend d).ssv = s.ssv ∧ (s.unpend d).pgn = s.pgn := by
  by_cases p : s.har.isPending d = true
  · have still : ({ s with har := s.har.setPending d false }.announce).har.anyPendingAt 7 = true := by
      have causes : ({ s with har := s.har.setPending d false }.announce).har.causes = (s.har.setPending d false).causes := by simp
      have one := anyPendingAt_of (h := s.har.setPending d false) (c := c) ((setPending_length _ _ _).trans h.every)
        ((setPending_other s.har other false).trans h.pending)
      rw [setPending_level, h.seven] at one
      rwa [Har.anyPendingAt, causes]
    rw [State.unpend, if_pos p]
    dsimp only
    rw [if_neg (by rw [still]; rintro ⟨-, ⟨⟩⟩), announce_ssv, announce_pgn]
    exact ⟨rfl, rfl⟩
  · rw [unpend_idle s d (by simpa using p)]
    exact ⟨rfl, rfl⟩

theorem refreshCause_held {c d : Cause} {s : State} (h : HeldBy c s) (other : c ≠ d) :
    HeldBy c (s.refreshCause d) ∧ (s.refreshCause d).ssv = s.ssv ∧ (s.refreshCause d).pgn = s.pgn := by
  have kept : (s.refreshCause d).ssv = s.ssv ∧ (s.refreshCause d).pgn = s.pgn := by
    unfold State.refreshCause
    split
    · exact raise_dropped d h.dropped
    · exact unpend_held h other
  have same := refreshCause_same s d
  refine ⟨⟨same.length.trans h.every, (same.level c).trans h.seven, (same.pending c other).trans h.pending, ?_⟩, kept⟩
  unfold Dropped
  rw [kept.1]
  exact h.dropped

theorem refreshFold_held {c : Cause} (l : List Cause) (other : c ∉ l) (s : State) (h : HeldBy c s) :
    (l.foldl State.refreshCause s).ssv = s.ssv ∧ (l.foldl State.refreshCause s).pgn = s.pgn := by
  induction l generalizing s with
  | nil => exact ⟨rfl, rfl⟩
  | cons d l ih =>
    obtain ⟨first, rest⟩ := not_or.1 (mt List.mem_cons.2 other)
    obtain ⟨held, ssv, pgn⟩ := refreshCause_held h first
    obtain ⟨ssv', pgn'⟩ := ih rest _ held
    exact ⟨ssv'.trans ssv, pgn'.trans pgn⟩

/-- R94, R148: a latched cause of level 7 holds the drive and the profile to the end of the command. -/
theorem close_held {c : Cause} {s : State} (latched : c.latched = true) (h : HeldBy c s) :
    s.close.ssv = s.ssv ∧ s.close.pgn = s.pgn := by
  have pins (u : State) : u.refreshPins.ssv = u.ssv ∧ u.refreshPins.pgn = u.pgn := ⟨rfl, rfl⟩
  have fold := refreshFold_held Cause.selfClearing (latched_not_selfClearing latched) s h
  rw [State.close, (pins _).1, (pins _).2]
  exact fold

/-- R147, R152: no pair is of a level above 7. -/
theorem pair_le_seven {h : Har} (n : h.causes.length = Cause.all.length) (most : ∀ c : Cause, h.level c ≤ 7) : h.pair.1 ≤ 7 := by
  rcases pair_cases n with e | ⟨d, -, e⟩
  · rw [e]
    exact Nat.zero_le _
  · rw [e]
    exact most d

/-- R152: a pending cause of level 7 is announced. -/
theorem announcedLevel_held {c : Cause} {s : State} (levels : LevelsLegal s) (seven : s.har.level c = 7)
    (pending : s.har.isPending c = true) (pair : PairAnnounced s) : s.har.announcedLevel = 7 := by
  have announced : s.har.announcedLevel = s.har.pair.1 := congrArg Prod.fst pair
  have most := pair_le_seven levels.1 fun d => (levels.2 d).2
  exact announced.trans (Nat.le_antisymm most (seven ▸ level_le_pair levels.1 pending))

theorem levelsLegal_same {keep : Cause → Prop} {s t : State} (same : SameCauses keep s.har t.har) (levels : LevelsLegal s) :
    LevelsLegal t :=
  ⟨same.length.trans levels.1, fun c => by rw [same.level]; exact levels.2 c⟩

theorem onlyIn_of_holdFrame {s t : State} (h : HoldFrame s t) : OnlyIn causeBlocks s t := by
  refine ⟨fun b n => ?_, h.freeTaken, h.pending⟩
  cases b with
  | ltu => exact h.ltu
  | peers => exact h.peers
  | fxs => exact h.fxs
  | inputs => exact h.inputs
  | sampling => exact h.sampling
  | sim => exact h.sim
  | cpt => exact h.cpt
  | items => exact h.items
  | rst => exact h.rst
  | _ => exact absurd (by decide) n

theorem nothingWaits_raise {s : State} (c : Cause) (h : NothingWaits s) : NothingWaits (s.raise c) := by
  obtain ⟨check, lowering, resume⟩ := h
  have stopped : (s.raise c).ssv.homeCheck = false := by
    by_cases taken : s.offline ∨ s.har.level c = 0 ∨ s.har.isPending c
    · rw [raise_ignored s c taken]
      exact check
    · rw [(raise_drive taken).1]
      split
      · unfold State.dropDrive
        split
        · exact check
        · rfl
      · exact check
  rcases (raise_frame s c).ixs with e | ⟨-, e⟩ <;> refine ⟨stopped, ?_, ?_⟩ <;> rw [e]
  · exact lowering
  · exact resume
  · rintro ⟨⟨⟩, -⟩
  · rintro ⟨⟨⟩, -⟩

end Sys2Proof.MotionProfiles
end

section
/-! What the end of a period makes of the profile, by kind and by stage (R71, R74, R75, R78, R79, R84). -/

namespace Sys2Proof.MotionProfiles

open Sys2Proof.Machine Sys2Proof.Safety Sys2Proof.Claims Sys2Proof.StepTime Sys2Proof.SectionLine

/-- Table 4-3: the setpoint of each kind. -/
theorem setpointAt_eq (p : Pgn) (acc : Nat) : p.setpointAt acc = SetpointOf p acc := by
  unfold Pgn.setpointAt SetpointOf
  cases p.kind
  case reposition => cases p.up <;> simp
  all_goals simp

theorem inRamp_iff (p : Pgn) : p.inRamp = true ↔ Ramps p := by
  unfold Pgn.inRamp Ramps
  cases p.rampFrom <;> simp

/-- R71, R74: the profile as a period of this velocity ends, before the time of the next is counted. -/
def PeriodOf (p : Pgn) (v : Nat) : Pgn :=
  { p with velocity := v, acc := p.acc + v, counter := p.counter + 1, setpoint := SetpointOf p (p.acc + v) }

/-- R73: the period in progress of a local profile takes 1,000 µs. -/
def Timed (p : Pgn) : Pgn := { p with localTimer := p.localTimer.map fun _ => 1000, stepFrom := none }

/-- The velocity that the profile procedure has planned for the period in progress. -/
def Planned (p : Pgn) : Nat := planVelocity p.distance p.accel p.plan (p.counter + 1)

section profiles

variable {p : Pgn} {decel pitch : Nat}

/-- R84: the creep of a homing run. -/
theorem endPeriod_creeps (kind : p.kind = .homing) (calm : ¬Ramps p) :
    p.endPeriod decel pitch = (PeriodOf p (min ((p.counter + 1) * p.accel) p.vLimit), .goesOn) := by
  have no : ¬p.inRamp = true := mt (inRamp_iff p).1 calm
  rw [Pgn.endPeriod, if_pos kind, Pgn.endHomingPeriod, if_neg no, if_neg (not_and_of_not_left _ no), setpointAt_eq]
  rfl

/-- R84: a ramp period of a homing run that still moves. -/
theorem endPeriod_slows (kind : p.kind = .homing) (ramps : Ramps p) (moves : decel < p.velocity) :
    p.endPeriod decel pitch = (PeriodOf p (p.velocity - decel), .goesOn) := by
  have still : ¬p.rampVelocity decel = 0 := by
    rw [Pgn.rampVelocity]
    omega
  rw [Pgn.endPeriod, if_pos kind, Pgn.endHomingPeriod, if_pos ((inRamp_iff p).2 ramps), if_neg (not_and_of_not_right _ still),
    setpointAt_eq]
  rfl

/-- R84: the ramp period of velocity 0 ends a homing run. -/
theorem endPeriod_stops (kind : p.kind = .homing) (ramps : Ramps p) (stops : p.velocity ≤ decel) :
    p.endPeriod decel pitch = (Ended (PeriodOf p 0), .rampEnded) := by
  have zero : p.rampVelocity decel = 0 := Nat.sub_eq_zero_of_le stops
  have ramp := (inRamp_iff p).2 ramps
  rw [Pgn.endPeriod, if_pos kind, Pgn.endHomingPeriod, if_pos ramp, if_pos ⟨ramp, zero⟩, zero, setpointAt_eq]
  rfl

/-- R71, R77: a period before the last, and every one that a later ramp leaves in place. -/
theorem endPeriod_goesOn (kind : p.kind ≠ .homing) (calm : ¬Ramps p) (more : p.phase = .ramping ∨ p.counter + 1 < p.periods) :
    p.endPeriod decel pitch = (PeriodOf p (Planned p), .goesOn) := by
  have before : ¬(p.phase = .running ∧ p.periods ≤ p.counter + 1) := by
    rintro ⟨running, reached⟩
    rcases more with ramping | more
    · rw [running] at ramping
      cases ramping
    · omega
  rw [Pgn.endPeriod, if_neg kind, if_neg (mt (inRamp_iff p).1 calm), Pgn.endProfilePeriod, if_neg before, setpointAt_eq]
  rfl

/-- R75: the last period of a return or reposition. -/
theorem endPeriod_completes (kind : p.kind = .ret ∨ p.kind = .reposition) (calm : ¬Ramps p) (running : p.phase = .running)
    (last : p.counter + 1 = p.periods) : p.endPeriod decel pitch = (Ended (PeriodOf p (Planned p)), .completed) := by
  have homing : p.kind ≠ .homing := by rcases kind with e | e <;> rw [e] <;> decide
  have own : p.kind.common = false := by rcases kind with e | e <;> rw [e] <;> rfl
  rw [Pgn.endPeriod, if_neg homing, if_neg (mt (inRamp_iff p).1 calm), Pgn.endProfilePeriod, if_pos ⟨running, last.ge⟩,
    setpointAt_eq, Pgn.complete]
  simp only [own, Bool.false_eq_true, if_false]
  rfl

theorem halt_local (kind : p.kind.localKind = true) : p.halt = Ended p := if_pos kind

theorem halt_common (kind : p.kind.localKind = false) : p.halt = p := if_neg (by rw [kind]; nofun)

theorem halt_keeps (p : Pgn) : p.halt.kind = p.kind ∧ p.halt.counter = p.counter ∧ p.halt.setpoint = p.setpoint := by
  unfold Pgn.halt
  split <;> exact ⟨rfl, rfl, rfl⟩

end profiles

/-! The word of a period and its POSITION (R74, R93, R97, R99). -/

/-- R93: the word of `g` has been started in `s`. -/
def WordSent (s : State) (g : Pgn) : State := { s with pgn := g, ssv := WordStarted s.ssv g.setpoint }

/-- R74, R93, R97, R99: the state after the word of a period and its POSITION. -/
def Advanced (s : State) (g : Pgn) : State := { s with pgn := g }.wordAtPeriod.reportPosition

section words

variable {s : State} {g : Pgn}

theorem lineFree_iff (s : State) : s.lineFree = true ↔ 40 ≤ s.ssv.wordAge := decide_eq_true_iff

theorem followingTooFar_iff (s : State) (g : Pgn) : (WordSent s g).followingTooFar = true ↔ ¬Follows97 s g.setpoint := by
  unfold Follows97 State.followingTooFar
  rw [Bool.and_eq_true, decide_eq_true_eq, not_or, Nat.not_le, Bool.not_eq_false]
  rfl

theorem sendWord_follows (follows : Follows97 s g.setpoint) : { s with pgn := g }.sendWord = WordSent s g :=
  if_neg (c := (WordSent s g).followingTooFar = true) fun far => (followingTooFar_iff s g).1 far follows

theorem sendWord_exceeds (far : ¬Follows97 s g.setpoint) :
    { s with pgn := g }.sendWord = (WordSent s g).raise .followingError :=
  if_pos (c := (WordSent s g).followingTooFar = true) ((followingTooFar_iff s g).2 far)

theorem saturated_iff (e : Int) : limitTo 32767 e ≠ e ↔ e < -32767 ∨ 32767 < e := by
  unfold limitTo
  omega

/-- R99: POSITION of the period that has led to the profile. -/
theorem reportPosition_eq (u : State) : u.reportPosition = { u with
    lpt := if u.pgn.counter % 8 = 0 then u.lpt.enqueue (PositionOf u u.pgn u.ssv.followingError) else u.lpt } := by
  have payload : positionPayload u.ixs.index u.pgn.kind u.pgn.counter u.pgn.setpoint u.ssv.followingError
      = PositionOf u u.pgn u.ssv.followingError := by
    unfold positionPayload PositionOf
    simp only [saturated_iff]
    rfl
  unfold State.reportPosition
  rw [payload]
  split <;> rfl

/-- R93: while a word is being sent the setpoint waits. -/
theorem advanced_waits (busy : s.ssv.wordAge < 40) : Advanced s g = GivenOut s g := by
  have waits : { s with pgn := g }.wordAtPeriod = { s with pgn := g, ssv := { s.ssv with wordWaiting := true } } :=
    if_neg (mt (lineFree_iff { s with pgn := g }).1 (Nat.not_le.2 busy))
  rw [Advanced, waits, reportPosition_eq, GivenOut, if_neg (Nat.not_le.2 busy)]
  rfl

/-- R93, R97: the word sent finds the shuttle where it is to be. -/
theorem advanced_follows (free : 40 ≤ s.ssv.wordAge) (follows : Follows97 s g.setpoint) : Advanced s g = GivenOut s g := by
  have sent : { s with pgn := g }.wordAtPeriod = WordSent s g :=
    (if_pos ((lineFree_iff { s with pgn := g }).2 free)).trans (sendWord_follows follows)
  rw [Advanced, sent, reportPosition_eq, GivenOut, if_pos free]
  rfl

theorem advanced_exceeds (free : 40 ≤ s.ssv.wordAge) (far : ¬Follows97 s g.setpoint) :
    Advanced s g = ((WordSent s g).raise .followingError).reportPosition := by
  have sent : { s with pgn := g }.wordAtPeriod = (WordSent s g).raise .followingError :=
    (if_pos ((lineFree_iff { s with pgn := g }).2 free)).trans (sendWord_exceeds far)
  rw [Advanced, sent]

/-- What the word and POSITION of a period leave of the drive: every field but the word's own. -/
theorem givenOut_field {α : Type} (field : Ssv → α) (own : ∀ word age waiting error, field
    { s.ssv with word := word, wordAge := age, wordWaiting := waiting, followingError := error } = field s.ssv) (g : Pgn) :
    field (GivenOut s g).ssv = field s.ssv := by
  unfold GivenOut
  dsimp only
  split
  · exact own _ _ _ _
  · exact own _ _ _ _

@[simp] theorem givenOut_shuttle (s : State) (g : Pgn) : (GivenOut s g).ssv.shuttle = s.ssv.shuttle :=
  givenOut_field Ssv.shuttle (fun _ _ _ _ => rfl) g

@[simp] theorem givenOut_drive (s : State) (g : Pgn) : (GivenOut s g).ssv.drive = s.ssv.drive :=
  givenOut_field Ssv.drive (fun _ _ _ _ => rfl) g

@[simp] theorem givenOut_repositionUse (s : State) (g : Pgn) : (GivenOut s g).ssv.repositionUse = s.ssv.repositionUse :=
  givenOut_field Ssv.repositionUse (fun _ _ _ _ => rfl) g

@[simp] theorem givenOut_homingStage (s : State) (g : Pgn) : (GivenOut s g).ssv.homingStage = s.ssv.homingStage :=
  givenOut_field Ssv.homingStage (fun _ _ _ _ => rfl) g

@[simp] theorem givenOut_encoder (s : State) (g : Pgn) : (GivenOut s g).ssv.encoder = s.ssv.encoder :=
  givenOut_field Ssv.encoder (fun _ _ _ _ => rfl) g

theorem givenOut_judged (s : State) (g : Pgn) : SameJudged s (GivenOut s g) := by
  refine ⟨rfl, rfl, ?_, rfl, rfl, rfl, rfl⟩
  unfold GivenOut
  dsimp only
  split <;> rfl

end words

/-! The halt at the word of a period (R94, R97). -/

section halt

variable {s : State} {g : Pgn}

theorem followingError_seven (levels : LevelsLegal s) : s.har.level .followingError = 7 := by
  obtain ⟨least, most⟩ := levels.2 .followingError
  exact Nat.le_antisymm most least

/-- R97, R149: beyond FOLLOW_LIMIT FOLLOWING_ERROR is raised anew. -/
theorem exceeds_taken (h : Exceeds s g) : ¬((WordSent s g).offline ∨ (WordSent s g).har.level .followingError = 0
    ∨ (WordSent s g).har.isPending .followingError) := by
  obtain ⟨-, -, levels, on, idle, -⟩ := h
  rintro (off | zero | pending)
  · exact on (beq_iff_eq.1 off)
  · have seven := followingError_seven levels
    have z : s.har.level .followingError = 0 := zero
    omega
  · have p : s.har.isPending .followingError = true := pending
    rw [idle] at p
    cases p

/-- R94, R97: FOLLOWING_ERROR drops the drive and ends a local profile. -/
theorem exceeds_drive (h : Exceeds s g) :
    ((WordSent s g).raise .followingError).ssv = HaltedDrive (WordStarted s.ssv g.setpoint)
      ∧ ((WordSent s g).raise .followingError).pgn = g.halt := by
  obtain ⟨ssv, pgn⟩ := raise_drive (exceeds_taken h)
  obtain ⟨-, -, levels, -, -, free⟩ := h
  have seven : (WordSent s g).har.level .followingError = 7 := followingError_seven levels
  rw [if_pos seven] at ssv pgn
  obtain ⟨drive, halted⟩ := dropDrive_free (s := WordSent s g) free
  exact ⟨ssv.trans drive, pgn.trans halted⟩

/-- R94, R97, R99: the state in which FOLLOWING_ERROR has been raised, its POSITION queued. -/
def Lost (s : State) (g : Pgn) : State := ((WordSent s g).raise .followingError).reportPosition

theorem lost_drive (h : Exceeds s g) :
    (Lost s g).ssv = HaltedDrive (WordStarted s.ssv g.setpoint) ∧ (Lost s g).pgn = g.halt := by
  rw [Lost, reportPosition_eq]
  exact exceeds_drive h

theorem lost_same (s : State) (g : Pgn) : SameCauses (· ≠ .followingError) s.har (Lost s g).har := by
  rw [Lost, reportPosition_eq]
  exact raise_same (WordSent s g) .followingError

theorem lost_frame (s : State) (g : Pgn) : HoldFrame s (Lost s g) := by
  have sent : HoldFrame s (WordSent s g) := .of_ixs rfl rfl rfl rfl rfl rfl rfl rfl rfl rfl rfl rfl
  have queued (u : State) : HoldFrame u u.reportPosition := by
    rw [reportPosition_eq]
    exact .of_ixs rfl rfl rfl rfl rfl rfl rfl rfl rfl rfl rfl rfl
  exact (sent.trans (raise_frame _ _)).trans (queued _)

theorem lost_held (h : Exceeds s g) : HeldBy .followingError (Lost s g) := by
  have same := lost_same s g
  obtain ⟨ssv, -⟩ := lost_drive h
  obtain ⟨-, -, levels, on, -, -⟩ := h
  refine ⟨same.length.trans levels.1, (same.level _).trans (followingError_seven levels), ?_, ?_⟩
  · have offline : (WordSent s g).offline = false := beq_eq_false_iff_ne.2 on
    rw [Lost, reportPosition_eq]
    exact raise_pending (WordSent s g) .followingError offline (level_pos levels (by decide)) levels.1
  · unfold Dropped
    rw [ssv]
    exact ⟨rfl, rfl⟩

theorem lost_announced (h : Exceeds s g) : PairAnnounced (Lost s g) := by
  rw [Lost, reportPosition_eq]
  exact raise_announces (exceeds_taken h)

/-- R99: POSITION of a period that has ended in FOLLOWING_ERROR. -/
theorem lost_position (h : Exceeds s g) (eighth : g.counter % 8 = 0) :
    ∃ f ∈ (Lost s g).close.lpt.queue, f.payload = PositionOf s g (s.ssv.encoder.toInt - g.setpoint) := by
  obtain ⟨ssv, pgn⟩ := exceeds_drive h
  obtain ⟨kind, counter, setpoint⟩ := halt_keeps g
  have index : ((WordSent s g).raise .followingError).ixs.index = s.ixs.index := by
    rcases (raise_frame (WordSent s g) .followingError).ixs with e | ⟨-, e⟩ <;> rw [e] <;> rfl
  have queued : Lost s g = ((WordSent s g).raise .followingError).queueFrame (PositionOf s g (s.ssv.encoder.toInt - g.setpoint)) := by
    have payload : PositionOf ((WordSent s g).raise .followingError) ((WordSent s g).raise .followingError).pgn
        ((WordSent s g).raise .followingError).ssv.followingError = PositionOf s g (s.ssv.encoder.toInt - g.setpoint) := by
      rw [PositionOf, index, pgn, ssv, kind, counter, setpoint]
      rfl
    rw [Lost, reportPosition_eq, payload, if_pos (by rw [pgn, counter]; exact eighth)]
    rfl
  rw [queued]
  exact queued_close rfl

/-- R93, R94, R97: everything that the halt at the word of a period has done by the end of the command. -/
theorem lost_closed (h : Exceeds s g) : FollowingLost s (Lost s g).close g ∧ OnlyIn causeBlocks s (Lost s g).close
    ∧ IxsKept s (Lost s g).close ∧ (Lost s g).close.pgn = g.halt ∧ (Lost s g).close.ssv.haltedFrom = some s.ssv.shuttle := by
  have held := lost_held h
  obtain ⟨ssv, pgn⟩ := lost_drive h
  obtain ⟨keptSsv, keptPgn⟩ := close_held rfl held
  have frame := (lost_frame s g).trans (close_frame _)
  have same := lost_same s g
  have closed := close_same (Lost s g)
  have levels : LevelsLegal (Lost s g).close := levelsLegal_same closed (levelsLegal_same same h.2.2.1)
  have pending : (Lost s g).close.har.isPending .followingError = true := (closed.pending _ rfl).trans held.pending
  have announced := announcedLevel_held levels ((closed.level _).trans held.seven) pending
    ((close_follows _).announced held.every (lost_announced h))
  have kept : LatchedKept [.followingError] s (Lost s g).close :=
    ⟨fun c => (closed.level c).trans (same.level c), fun c latched other =>
      (closed.pending c latched).trans (same.pending c (by simpa using other))⟩
  have drive := keptSsv.trans ssv
  refine ⟨⟨kept, pending, announced, ?_, ?_, ?_, ?_, ?_, ?_, ?_, lost_position h⟩, onlyIn_of_holdFrame frame, frame.ixs,
    keptPgn.trans pgn, ?_⟩
  all_goals
    rw [drive]
    rfl

end halt

end Sys2Proof.MotionProfiles
end

section
/-! PERIOD_END: a period ends (R71, R73 to R75, R77, R84, R85, R88 to R90, R93, R94, R97, R99). -/

namespace Sys2Proof.MotionProfiles

open Sys2Proof.Machine Sys2Proof.Safety Sys2Proof.Claims Sys2Proof.StepTime Sys2Proof.SectionLine

variable {s : State} {q : Pgn} {o : PeriodOutcome}

theorem exec_periodEnd (runs : PeriodRuns s) : exec .periodEnd s = .next s.endPeriod.close :=
  if_pos ((periodRuns_iff s).2 runs)

/-- R71, R93: the profile advances, its word and POSITION follow, then its outcome, and then the reports of the word. -/
theorem endPeriod_eq (runs : PeriodRuns s) (ends : s.pgn.endPeriod s.items.stopDecel s.pitch = (q, o)) :
    s.endPeriod = if s.lineFree = true then ((Advanced s (Timed q)).outcomeAfterWord o).reportWord
      else (Advanced s (Timed q)).outcomeAfterWord o := by
  rw [State.endPeriod, if_pos ((periodRuns_iff s).2 runs), ends]
  rfl

theorem outcomeAfterWord_goesOn (u : State) : u.outcomeAfterWord .goesOn = u := ite_self u

/-- R75, R85: with the drive asserted a period takes its outcome. -/
theorem outcomeAfterWord_driven {u : State} (driven : u.ssv.drive = true) : u.outcomeAfterWord o = u.periodOutcome o :=
  if_neg fun h => by rw [driven] at h; cases h.2

/-- R85, R94: a local profile that its word has halted takes none. -/
theorem outcomeAfterWord_dropped {u : State} (own : u.pgn.kind.localKind = true) (dropped : u.ssv.drive = false) :
    u.outcomeAfterWord o = u := if_pos ⟨own, dropped⟩

/-- Table 4-3: a profile is common or local. -/
theorem common_or_local {k : PgnKind} (some : k ≠ .none) : ((k = .forward ∨ k = .resume) ∧ k.localKind = false)
    ∨ (¬(k = .forward ∨ k = .resume) ∧ k.localKind = true) := by
  cases k with
  | none => exact absurd rfl some
  | forward | resume => exact .inl (by decide)
  | ret | reposition | homing => exact .inr (by decide)

/-- R71, R93: what the end of a period leads to where its word does not halt the shuttle. -/
theorem endPeriod_given (runs : PeriodRuns s) (ends : s.pgn.endPeriod s.items.stopDecel s.pitch = (q, o))
    (given : Advanced s (Timed q) = GivenOut s (Timed q)) {u : State}
    (outcome : (GivenOut s (Timed q)).outcomeAfterWord o = u) :
    s.endPeriod = if s.lineFree = true then u.reportWord else u := by
  rw [endPeriod_eq runs ends, given, outcome]

theorem endPeriod_busy (runs : PeriodRuns s) (ends : s.pgn.endPeriod s.items.stopDecel s.pitch = (q, o)) {u : State}
    (outcome : (GivenOut s (Timed q)).outcomeAfterWord o = u) (busy : s.ssv.wordAge < 40) : s.endPeriod = u := by
  rw [endPeriod_given runs ends (advanced_waits busy) outcome, if_neg (mt (lineFree_iff s).1 (Nat.not_le.2 busy))]

theorem endPeriod_follows (runs : PeriodRuns s) (ends : s.pgn.endPeriod s.items.stopDecel s.pitch = (q, o)) {u : State}
    (outcome : (GivenOut s (Timed q)).outcomeAfterWord o = u) (free : 40 ≤ s.ssv.wordAge)
    (follows : Follows97 s (Timed q).setpoint) : s.endPeriod = u.reportWord := by
  rw [endPeriod_given runs ends (advanced_follows free follows) outcome, if_pos ((lineFree_iff s).2 free)]

/-- R94, R97: beyond FOLLOW_LIMIT a period of a local profile takes no outcome, and one of a common profile that goes on has none. -/
theorem endPeriod_exceeds (runs : PeriodRuns s) (ends : s.pgn.endPeriod s.items.stopDecel s.pitch = (q, o))
    (outcome : q.kind.localKind = true ∨ o = .goesOn) (far : Exceeds s (Timed q)) : s.endPeriod = Lost s (Timed q) := by
  obtain ⟨ssv, pgn⟩ := lost_drive far
  have dropped : (Lost s (Timed q)).ssv.drive = false := by
    rw [ssv]
    rfl
  have none : (Lost s (Timed q)).outcomeAfterWord o = Lost s (Timed q) := by
    rcases outcome with own | rfl
    · refine outcomeAfterWord_dropped ?_ dropped
      rw [pgn, (halt_keeps _).1]
      exact own
    · exact outcomeAfterWord_goesOn _
  have given : Advanced s (Timed q) = Lost s (Timed q) := advanced_exceeds far.1 far.2.1
  rw [endPeriod_eq runs ends, given, none, reportWord_dropped dropped, ite_self]

/-- A period that ends in `q` with the outcome `o`, where `f` is what that outcome does. -/
theorem periodTaken_of {f : State → State} (runs : PeriodRuns s) (ends : s.pgn.endPeriod s.items.stopDecel s.pitch = (q, o))
    (kind : q.kind = s.pgn.kind) (some : s.pgn.kind ≠ .none) (own : s.pgn.kind.localKind = true ∨ o = .goesOn)
    (outcome : (GivenOut s (Timed q)).outcomeAfterWord o = f (GivenOut s (Timed q)))
    (same : SameJudged (GivenOut s (Timed q)) (f (GivenOut s (Timed q))))
    (step : (f (GivenOut s (Timed q))).ixs.step = s.ixs.step) : PeriodTaken s (Timed q) f := by
  have judged := (givenOut_judged s (Timed q)).trans same
  refine ⟨_, exec_periodEnd runs, fun busy => ?_, fun free follows => ?_, fun given settled => ?_, fun far => ?_⟩
  · rw [endPeriod_busy runs ends outcome busy]
    exact close_leads _
  · rw [endPeriod_follows runs ends outcome free follows]
    exact reportWord_reports _
  · by_cases busy : s.ssv.wordAge < 40
    · rw [endPeriod_busy runs ends outcome busy]
      have leads := close_leads (f (GivenOut s (Timed q)))
      exact (leads_settled leads judged settled).2
    · obtain ⟨follows, -, lowering, -⟩ := given.resolve_left busy
      obtain ⟨kept, pgn⟩ := reportWord_keeps (s := f (GivenOut s (Timed q))) (by rw [judged.state, step]; exact lowering)
      rw [endPeriod_follows runs ends outcome (Nat.not_lt.1 busy) follows]
      have leads := close_leads (f (GivenOut s (Timed q))).reportWord
      exact (leads_settled leads (judged.trans kept) settled).2.trans pgn
  · rw [endPeriod_exceeds runs ends (by rw [kind]; exact own) far]
    obtain ⟨lost, only, ixs, pgn, halted⟩ := lost_closed far
    rcases common_or_local some with ⟨common, foreign⟩ | ⟨foreign, own⟩
    · have goes : o = .goesOn := own.resolve_left (by rw [foreign]; nofun)
      have idle : f (GivenOut s (Timed q)) = GivenOut s (Timed q) := by
        rw [← outcome, goes]
        exact outcomeAfterWord_goesOn _
      rw [if_pos common, idle]
      exact ⟨lost, only, ixs, pgn.trans (halt_common (by rw [← kind] at foreign; exact foreign)),
        halted.trans (congrArg _ (givenOut_shuttle s _).symm)⟩
    · rw [if_neg foreign]
      exact ⟨lost, only, ixs, pgn.trans (halt_local (by rw [← kind] at own; exact own)),
        halted.trans (congrArg _ (givenOut_shuttle s _).symm)⟩

/-- R71: a period that goes on to the next has no outcome. -/
theorem periodTaken_goesOn {v : Nat} (runs : PeriodRuns s) (some : s.pgn.kind ≠ .none)
    (ends : s.pgn.endPeriod s.items.stopDecel s.pitch = (PeriodOf s.pgn v, .goesOn)) : PeriodTaken s (NextPeriod s.pgn v) id :=
  periodTaken_of runs ends rfl some (.inr rfl) (outcomeAfterWord_goesOn _) ⟨rfl, rfl, rfl, rfl, rfl, rfl, rfl⟩ rfl

/-- R75, R84: the last period of a local profile, the drive asserted. -/
theorem periodTaken_ended {v : Nat} {f : State → State} (runs : PeriodRuns s) (own : s.pgn.kind.localKind = true)
    (ends : s.pgn.endPeriod s.items.stopDecel s.pitch = (Ended (PeriodOf s.pgn v), o)) (driven : s.ssv.drive = true)
    (outcome : (GivenOut s (Ended (NextPeriod s.pgn v))).periodOutcome o = f (GivenOut s (Ended (NextPeriod s.pgn v))))
    (same : SameJudged (GivenOut s (Ended (NextPeriod s.pgn v))) (f (GivenOut s (Ended (NextPeriod s.pgn v)))))
    (step : (f (GivenOut s (Ended (NextPeriod s.pgn v)))).ixs.step = s.ixs.step) :
    PeriodTaken s (Ended (NextPeriod s.pgn v)) f := by
  have some : s.pgn.kind ≠ .none := fun e => by rw [e] at own; cases own
  exact periodTaken_of runs ends rfl some (.inl own)
    ((outcomeAfterWord_driven ((givenOut_drive s _).trans driven)).trans outcome) same step

/-! The outcomes of local profiles (R75, R84, R87 to R90). -/

section outcomes

variable {u : State}

theorem completed_ret (kind : u.pgn.kind = .ret) : u.periodOutcome .completed
    = { u with ssv := { u.ssv with homeCheck := true, homeCheckTimer := some 500000 } } := by
  simp only [State.periodOutcome, State.localCompleted, kind]
  rfl

theorem completed_reposition (kind : u.pgn.kind = .reposition) : u.periodOutcome .completed = u.repositionCompleted := by
  simp only [State.periodOutcome, State.localCompleted, kind]
  rfl

theorem rampEnded_homing (kind : u.pgn.kind = .homing) : u.periodOutcome .rampEnded = u.homingRunEnded := if_pos kind

theorem homingRunEnded_edge (stage : u.ssv.homingStage = .edgeRamp) : u.homingRunEnded = { u with
    ssv := { u.ssv with homingStage := .toZero, repositionTarget := some 0, repositionUse := some .toHome }
    pgn := u.pgn.prepareMove .reposition u.ssv.encoder.toInt 0 u.items.homingSpeed u.items.accel u.ltu.lineTime } := by
  simp only [State.homingRunEnded, stage]
  rfl

theorem homingRunEnded_failed (stage : u.ssv.homingStage = .rampFailed) : u.homingRunEnded = u.failHoming := by
  simp only [State.homingRunEnded, stage]

theorem repositionDone_step (u : State) : (RepositionDone u).ixs.step = u.ixs.step := by
  unfold RepositionDone
  dsimp only
  split_ifs <;> rfl

theorem stillOnCam_givenOut (s : State) (g : Pgn) : StillOnCam (GivenOut s g) ↔ StillOnCam s := by
  rw [StillOnCam, givenOut_repositionUse, givenOut_homingStage]
  rfl

/-- R89: a homing has failed, the reposition that was to leave the home cam over. -/
def CamNotLeft (u : State) : State := { u with ssv := { u.ssv with
  repositionTarget := none, repositionUse := none, homingTimer := none, homeCheckTimer := none, homeCheck := false
  homingStage := .none, shuttle := .unhomed } }

/-- R89: the reposition has not left the home cam. -/
theorem repositionCompleted_onCam (on : StillOnCam u) (free : u.ssv.shuttle ≠ .halted) :
    u.repositionCompleted = (CamNotLeft u).raise .returnFault := by
  obtain ⟨use, stage, home⟩ := on
  have failed : (RepositionOver u).failHoming = CamNotLeft u := failHoming_eq (s := RepositionOver u) free
  have still : (RepositionOver u).inputs.home = true := home
  rw [repositionCompleted_offCam use stage, State.offCamEnded, if_pos still, failed]

end outcomes

/-! The last period of a local profile, by kind. -/

/-- R75: a return or reposition after its last period. -/
def LastPeriod (p : Pgn) : Pgn := Ended (NextPeriod p (Planned p))

/-- R84: a homing run after its first ramp period of velocity 0. -/
def HomingStop (p : Pgn) : Pgn := Ended (NextPeriod p 0)

section lasts

variable (runs : PeriodRuns s) (driven : s.ssv.drive = true)

include runs driven

/-- R75, R90: the last period of a return. -/
theorem periodTaken_return (kind : s.pgn.kind = .ret) (calm : ¬Ramps s.pgn)
    (running : s.pgn.phase = .running) (last : s.pgn.counter + 1 = s.pgn.periods) :
    PeriodTaken s (LastPeriod s.pgn) fun u =>
      { u with ssv := { u.ssv with homeCheck := true, homeCheckTimer := some 500000 } } :=
  periodTaken_ended runs (by rw [kind]; rfl) (endPeriod_completes (.inl kind) calm running last) driven (completed_ret kind)
    ⟨rfl, rfl, rfl, rfl, rfl, rfl, rfl⟩ rfl

/-- R75, R87 to R89: the last period of a reposition. -/
theorem periodTaken_reposition (kind : s.pgn.kind = .reposition)
    (free : s.ssv.shuttle ≠ .halted) (calm : ¬Ramps s.pgn) (running : s.pgn.phase = .running)
    (last : s.pgn.counter + 1 = s.pgn.periods) (use : s.ssv.repositionUse ≠ none) (off : ¬StillOnCam s) :
    PeriodTaken s (LastPeriod s.pgn) RepositionDone := by
  refine periodTaken_ended runs (by rw [kind]; rfl) (endPeriod_completes (.inr kind) calm running last) driven ?_
    (repositionDone_judged _) (repositionDone_step _)
  have left := mt (stillOnCam_givenOut s (LastPeriod s.pgn)).1 off
  refine (completed_reposition (u := GivenOut s (LastPeriod s.pgn)) kind).trans (repositionCompleted_eq ?_ ?_ left)
  · rw [givenOut_repositionUse]
    exact use
  · rw [givenOut_shuttle]
    exact free

/-- R89: the last period of a reposition that has not left the home cam. -/
theorem period_onCam (kind : s.pgn.kind = .reposition)
    (free : s.ssv.shuttle ≠ .halted) (calm : ¬Ramps s.pgn) (running : s.pgn.phase = .running)
    (last : s.pgn.counter + 1 = s.pgn.periods) (on : StillOnCam s)
    (given : s.ssv.wordAge < 40 ∨ Follows97 s (LastPeriod s.pgn).setpoint) (waits : NothingWaits s) :
    s.endPeriod = (CamNotLeft (GivenOut s (LastPeriod s.pgn))).raise .returnFault := by
  have cam := (stillOnCam_givenOut s (LastPeriod s.pgn)).2 on
  have completed := repositionCompleted_onCam cam (by rw [givenOut_shuttle]; exact free)
  have outcome : (GivenOut s (LastPeriod s.pgn)).outcomeAfterWord .completed = _ :=
    (outcomeAfterWord_driven ((givenOut_drive s _).trans driven)).trans
      ((completed_reposition (u := GivenOut s (LastPeriod s.pgn)) kind).trans completed)
  have ends := endPeriod_completes (decel := s.items.stopDecel) (pitch := s.pitch) (.inr kind) calm running last
  by_cases busy : s.ssv.wordAge < 40
  · exact endPeriod_busy runs ends outcome busy
  · obtain ⟨-, lowering, resume⟩ := waits
    refine (endPeriod_follows runs ends outcome (Nat.not_lt.1 busy) (given.resolve_left busy)).trans ?_
    exact reportWord_nothingWaits (nothingWaits_raise _ ⟨rfl, lowering, resume⟩)

/-- R84, R88: the first period of velocity 0 after a home edge. -/
theorem periodTaken_edge (kind : s.pgn.kind = .homing) (ramps : Ramps s.pgn)
    (stops : s.pgn.velocity ≤ s.items.stopDecel) (stage : s.ssv.homingStage = .edgeRamp) :
    PeriodTaken s (HomingStop s.pgn) fun u => { u with
      ssv := { u.ssv with homingStage := .toZero, repositionTarget := some 0, repositionUse := some .toHome }
      pgn := u.pgn.prepareMove .reposition s.ssv.encoder.toInt 0 s.items.homingSpeed s.items.accel s.ltu.lineTime } := by
  refine periodTaken_ended runs (by rw [kind]; rfl) (endPeriod_stops kind ramps stops) driven ?_
    ⟨rfl, rfl, rfl, rfl, rfl, rfl, rfl⟩ rfl
  have edge := homingRunEnded_edge (u := GivenOut s (HomingStop s.pgn)) (by rw [givenOut_homingStage]; exact stage)
  rw [givenOut_encoder] at edge
  exact (rampEnded_homing (u := GivenOut s (HomingStop s.pgn)) kind).trans edge

/-- R84, R89: the first period of velocity 0 of a homing that has failed. -/
theorem periodTaken_failed (kind : s.pgn.kind = .homing)
    (free : s.ssv.shuttle ≠ .halted) (ramps : Ramps s.pgn) (stops : s.pgn.velocity ≤ s.items.stopDecel)
    (stage : s.ssv.homingStage = .rampFailed) :
    PeriodTaken s (HomingStop s.pgn) fun u => { u with
      ssv := { u.ssv with homingTimer := none, homeCheckTimer := none, homeCheck := false, homingStage := .none
                          shuttle := .unhomed } } := by
  refine periodTaken_ended runs (by rw [kind]; rfl) (endPeriod_stops kind ramps stops) driven ?_
    ⟨rfl, rfl, rfl, rfl, rfl, rfl, rfl⟩ rfl
  refine (rampEnded_homing (u := GivenOut s (HomingStop s.pgn)) kind).trans ((homingRunEnded_failed ?_).trans (failHoming_eq ?_))
  · rw [givenOut_homingStage]
    exact stage
  · rw [givenOut_shuttle]
    exact free

end lasts

/-- Settles O49: what each kind of period makes of the profile (`endPeriod_creeps`, `endPeriod_slows`, `endPeriod_stops`,
`endPeriod_goesOn`, `endPeriod_completes`), and what the outcome of the last does (`periodTaken_ended`), each with its word
(`periodTaken_of`) and the halt at it (`lost_closed`). -/
theorem periodEnds : Obligations.PeriodEnds := by
  intro s runs some i planned
  refine ⟨fun calm more => ?_, fun ramps kind moves => periodTaken_goesOn runs some (endPeriod_slows kind ramps moves),
    fun driven free => ⟨fun calm running last => ⟨fun kind => periodTaken_return runs driven kind calm running last,
      fun kind use off => periodTaken_reposition runs driven kind free calm running last use off,
      fun kind cam given waits levels on => ⟨_, exec_periodEnd runs, ?_⟩⟩,
      fun ramps kind stops => ⟨fun stage => periodTaken_edge runs driven kind ramps stops stage,
        fun stage => periodTaken_failed runs driven kind free ramps stops stage⟩⟩⟩
  · by_cases kind : s.pgn.kind = .homing
    · rw [if_pos kind]
      exact periodTaken_goesOn runs some (endPeriod_creeps kind calm)
    · rw [if_neg kind]
      exact periodTaken_goesOn runs some (endPeriod_goesOn kind calm (more.resolve_left kind))
  · rw [period_onCam runs driven kind free calm running last cam given waits]
    exact ⟨raise_close_pending _ _ on (level_pos levels (by decide)) levels.1 rfl, raise_close_follows _ _ rfl⟩

end Sys2Proof.MotionProfiles
end

section
/-! The laws of the drive, the pending causes and the announced pair (R94, R148, R150, R152, R160), kept by every operation. -/

set_option Elab.async false

namespace Sys2Proof.Supervision

open Sys2Proof.Machine Sys2Proof.Safety

/-- R94, R148, R150, R152, R160: the laws of the drive, the pending causes and the announced pair. -/
structure Supervised (s : State) : Prop where
  quiet : OfflineQuiet s
  dropped : DriveDropped s
  announced : PairAnnounced s

variable {s t : State}

/-! Updates that the laws do not read. -/

/-- The laws read the causes, the announced pair, DRIVE_ENABLE, whether the station is in OFFLINE, and there the peer records. -/
theorem Supervised.of_har (h : Supervised s) (hc : t.har.causes = s.har.causes)
    (ha : (t.har.announcedLevel, t.har.announcedCause) = (s.har.announcedLevel, s.har.announcedCause))
    (hd : t.ssv.drive = s.ssv.drive) (hi : t.ixs.state = s.ixs.state ∧ (s.peers = [] → t.peers = []) ∨ t.ixs.state ≠ .offline) :
    Supervised t := by
  refine ⟨fun o => ?_, fun p => ?_, ?_⟩
  · rcases hi with ⟨hi, hp⟩ | hi
    · obtain ⟨none, drive, peers⟩ := h.quiet (hi ▸ o)
      exact ⟨hc ▸ none, hd.trans drive, hp peers⟩
    · exact absurd o hi
  · unfold Har.anyPendingAt at p
    rw [hc] at p
    exact hd.trans (h.dropped p)
  · unfold PairAnnounced Har.pair
    rw [ha, hc]
    exact h.announced

/-- An update of anything else. -/
theorem Supervised.of_rest (h : Supervised s) (hh : t.har = s.har := by rfl) (hd : t.ssv.drive = s.ssv.drive := by rfl)
    (hi : t.ixs.state = s.ixs.state := by rfl) (hp : s.peers = [] → t.peers = [] := by exact id) : Supervised t :=
  h.of_har (by rw [hh]) (by rw [hh]) hd (.inl ⟨hi, hp⟩)

/-- The same with a change to a sequencer state other than OFFLINE. -/
theorem Supervised.of_state (h : Supervised s) (hi : t.ixs.state ≠ .offline := by exact nofun) (hh : t.har = s.har := by rfl)
    (hd : t.ssv.drive = s.ssv.drive := by rfl) : Supervised t :=
  h.of_har (by rw [hh]) (by rw [hh]) hd (.inr hi)

/-- R94, R95: outside OFFLINE the drive may be asserted while no cause of level 7 is pending. -/
theorem Supervised.of_drive (h : Supervised s) (n : s.har.anyPendingAt 7 = false) (hi : t.ixs.state ≠ .offline)
    (hh : t.har = s.har := by rfl) : Supervised t := by
  refine ⟨fun o => absurd o hi, fun p => ?_, ?_⟩
  · rw [hh, n] at p
    cases p
  · unfold PairAnnounced
    rw [hh]
    exact h.announced

/-- What holds on both ways of a test holds after it. -/
theorem Supervised.ite {b : Prop} [Decidable b] (h : Supervised s) (k : Supervised t) : Supervised (if b then s else t) := by
  split
  · exact h
  · exact k

/-! The Hold Arbiter. -/

/-- R94: a pending cause of a level stays one, unless another of that level has become pending. -/
theorem setPending_anyPendingAt {h : Har} {c : Cause} {b : Bool} {l : Nat} (n : b = true → h.level c ≠ l)
    (p : (h.setPending c b).anyPendingAt l = true) : h.anyPendingAt l = true := by
  unfold Har.anyPendingAt Har.setPending at *
  obtain ⟨e, m, q⟩ := List.any_eq_true.1 p
  rcases List.mem_or_eq_of_mem_set m with m | rfl
  · exact List.any_eq_true.2 ⟨e, m, q⟩
  · simp only [Bool.and_eq_true, beq_iff_eq] at q
    exact absurd q.2 (n q.1)

/-- R152: the pair is announced once it has been formed anew. -/
theorem announce_announced (s : State) : PairAnnounced s.announce := by
  unfold PairAnnounced Har.pair
  rw [announce_causes]
  exact announce_pair s

theorem Supervised.raise_announced (h : Supervised s) (c : Cause) : PairAnnounced (s.raise c) := by
  by_cases k : s.offline ∨ s.har.level c = 0 ∨ s.har.isPending c
  · rw [raise_ignored s c k]
    exact h.announced
  · have formed := announce_announced { s with har := s.har.setPending c true }
    rw [raise_taken s c k]
    unfold PairAnnounced at formed ⊢
    dsimp only
    split <;> split <;> simpa [State.queueStop] using formed

/-- R94: a raising that is taken drops the drive at level 7, and leaves it at any other. -/
theorem raise_drive (s : State) (c : Cause) (k : ¬(s.offline ∨ s.har.level c = 0 ∨ s.har.isPending c)) :
    (s.raise c).ssv.drive = if s.har.level c = 7 then false else s.ssv.drive := by
  rw [raise_taken s c k]
  dsimp only
  split
  · exact (dropDrive_ssv _).1
  · split <;> simp [State.queueStop]

theorem Supervised.raise (h : Supervised s) (c : Cause) : Supervised (s.raise c) := by
  by_cases k : s.offline ∨ s.har.level c = 0 ∨ s.har.isPending c
  · rw [raise_ignored s c k]
    exact h
  · have on : (s.raise c).ixs.state ≠ .offline := by
      have o : s.ixs.state ≠ .offline := fun e => k (.inl (by simp [State.offline, e]))
      rcases (raise_frame s c).ixs with e | ⟨-, e⟩ <;> rw [e]
      · exact o
      · exact nofun
    refine ⟨fun o => absurd o on, fun p => ?_, h.raise_announced c⟩
    rw [raise_drive s c k]
    split
    · rfl
    · rename_i n
      unfold Har.anyPendingAt at p
      rw [raise_causes s c k] at p
      exact h.dropped (setPending_anyPendingAt (fun _ => n) p)

/-- R150: in OFFLINE no cause is pending, so a station with a pending one is outside it. -/
theorem Supervised.on_of_pending (h : Supervised s) {c : Cause} (p : s.har.isPending c = true) : s.ixs.state ≠ .offline := by
  intro o
  obtain ⟨none, -, -⟩ := h.quiet o
  unfold Har.isPending at p
  rw [List.getD_eq_getElem?_getD] at p
  cases e : s.har.causes[c.number]? with
  | none => rw [e] at p; cases p
  | some x => rw [e, Option.getD_some, none x (List.mem_of_getElem? e)] at p; cases p

/-- R95: outside OFFLINE the shuttle may restart while no cause of level 7 is pending. -/
theorem Supervised.restart (h : Supervised s) (n : s.har.anyPendingAt 7 = false) (on : s.ixs.state ≠ .offline) :
    Supervised s.restart :=
  h.of_drive n (by rwa [restart_ixs]) (restart_har s)

theorem Supervised.unpend (h : Supervised s) (c : Cause) : Supervised (s.unpend c) := by
  unfold State.unpend
  split
  · rename_i p
    have on : ({ s with har := s.har.setPending c false } : State).announce.ixs.state ≠ .offline := by
      rcases (announce_frame { s with har := s.har.setPending c false }).ixs with e | ⟨-, e⟩ <;> rw [e]
      · exact h.on_of_pending p
      · exact nofun
    have g : Supervised ({ s with har := s.har.setPending c false } : State).announce := by
      refine ⟨fun o => absurd o on, fun q => ?_, announce_announced _⟩
      unfold Har.anyPendingAt at q
      rw [announce_causes] at q
      rw [announce_ssv]
      exact h.dropped (setPending_anyPendingAt (b := false) (fun e => absurd e Bool.false_ne_true) q)
    dsimp only
    split
    · rename_i last
      exact g.restart (by simpa using last.2) on
    · exact g
  · exact h

theorem Supervised.refreshCauses (h : Supervised s) : Supervised s.refreshCauses := by
  unfold State.refreshCauses
  generalize Cause.selfClearing = l
  induction l generalizing s with
  | nil => exact h
  | cons c l ih =>
    refine ih ?_
    unfold State.refreshCause
    split
    · exact h.raise c
    · exact h.unpend c

theorem Supervised.refreshPins (h : Supervised s) : Supervised s.refreshPins := h.of_har rfl rfl rfl (.inl ⟨rfl, id⟩)

theorem Supervised.close (h : Supervised s) : Supervised s.close := h.refreshCauses.refreshPins

/-! The Line Port, the peer table, the sequencer, the shuttle and the Cell Port. -/

theorem Supervised.queueFrame (h : Supervised s) (p : Payload) : Supervised (s.queueFrame p) := h.of_rest

theorem Supervised.withdraw (h : Supervised s) (sel : Payload → Bool) : Supervised (s.withdraw sel) := h.of_rest

theorem Supervised.queueStop (h : Supervised s) (n : Nat) : Supervised (s.queueStop n) := h.of_rest

theorem Supervised.updatePeer (h : Supervised s) (i : Nat) (f : Peer → Peer) : Supervised (s.updatePeer i f) :=
  h.of_rest (hp := fun e => by simp [State.updatePeer, e, updateAt])

theorem Supervised.updatePeers (h : Supervised s) (f : Peer → Peer) : Supervised (s.updatePeers f) :=
  h.of_rest (hp := fun e => by simp [State.updatePeers, e])

theorem Supervised.enter (h : Supervised s) (st : SeqState) (n : st ≠ .offline := by decide) : Supervised (s.enter st) :=
  h.of_state n

theorem Supervised.goStep (h : Supervised s) (st : IndexStep) : Supervised (s.goStep st) := h.of_rest

theorem Supervised.moveShuttle (h : Supervised s) (st : ShuttleState) : Supervised (s.moveShuttle st) := by
  rcases moveShuttle_cases s st with ⟨-, e⟩ | ⟨-, e⟩ <;> rw [e] <;> exact h.of_rest

theorem Supervised.reposition (h : Supervised s) (u : RepositionUse) (x : Int) : Supervised (s.reposition u x) := h.of_rest

theorem Supervised.returnFrom (h : Supervised s) (x : Int) : Supervised (s.returnFrom x) := h.of_rest

theorem Supervised.setFixture (h : Supervised s) (x : FixtureStatus) (r : Option PalletRecord) :
    Supervised (s.setFixture x r) := h.of_rest

/-! The Fixture Sequencer and the records. -/

theorem Supervised.liftReported (h : Supervised s) : Supervised s.liftReported := ((h.queueFrame _).enter _).ite h

theorem Supervised.enterWorking (h : Supervised s) : Supervised s.enterWorking := (h.goStep _).enter _

theorem Supervised.fixtureReported (h : Supervised s) : Supervised s.fixtureReported := by
  unfold State.fixtureReported
  split
  · exact (Supervised.liftReported h.of_rest).ite h
  · exact h.enterWorking.ite h
  · exact h.enterWorking.ite h
  · exact h

theorem Supervised.openFixture (h : Supervised s) : Supervised s.openFixture := Supervised.fixtureReported h.of_rest

theorem Supervised.seatFixture (h : Supervised s) : Supervised s.seatFixture := Supervised.fixtureReported h.of_rest

theorem Supervised.keepOpen (h : Supervised s) : Supervised s.keepOpen := h.openFixture

theorem Supervised.raiseOpt (h : Supervised s) (c : Option Cause) : Supervised (s.raiseOpt c) := by
  cases c with
  | none => exact h
  | some c => exact h.raise c

theorem Supervised.decideSeating (h : Supervised s) : Supervised s.decideSeating := by
  have g : Supervised ({ s with ixs := { s.ixs with upstreamTimer := none } }.goStep .seat) := h.of_rest
  exact ((g.setFixture _ _).raiseOpt _).keepOpen.ite ((g.setFixture _ _).raiseOpt _).seatFixture

theorem Supervised.moveRecord (h : Supervised s) : Supervised s.moveRecord := by
  unfold State.moveRecord
  refine Supervised.keepOpen (Supervised.setFixture ?_ _ _)
  dsimp only
  split
  · exact h.of_rest
  · exact h.of_rest

theorem Supervised.updateImage (h : Supervised s) (m : Nat) (f : ReadyFields) : Supervised (s.updateImage m f) :=
  Supervised.ite (Supervised.raise h.of_rest _) h.of_rest

/-! The Index Sequencer. -/

theorem Supervised.enterReleasing (h : Supervised s) : Supervised s.enterReleasing := by
  unfold State.enterReleasing
  refine Supervised.openFixture ?_
  have stop {u : State} (k : Supervised u) :
      Supervised (if 6 ≤ u.har.announcedLevel then u.queueStop u.har.announcedCause else u) := (k.queueStop _).ite k
  have raised {u : State} (k : Supervised u) : Supervised (if u.inputs.machClear then u else u.raise .machIntrusion) :=
    k.ite (k.raise _)
  exact raised (stop h.of_state)

theorem Supervised.checkReadyBarrier (h : Supervised s) : Supervised s.checkReadyBarrier := h.enterReleasing.ite h

theorem Supervised.abandonSeat (h : Supervised s) : Supervised s.abandonSeat := by
  have g : Supervised ({ s with ixs := { s.ixs with loweringTimer := none } }.goStep .abandonSeat) := h.of_rest
  exact g.fixtureReported.ite g.seatFixture

theorem Supervised.abandon (h : Supervised s) : Supervised s.abandon := by
  unfold State.abandon
  dsimp only
  split
  · exact Supervised.abandonSeat h.of_state
  · exact h.of_state

theorem Supervised.startMotion (h : Supervised s) (p : Pgn) (x : LineTime) : Supervised (s.startMotion p x) := by
  have g : Supervised { s with
      pgn := p
      ssv := { s.ssv.endHoming with repositionTarget := none, repositionUse := none }
      ixs := { s.ixs with origin := some x, resumeStep := .none } } := h.of_rest
  have m := (g.moveShuttle .forward).enter .moving
  exact (m.queueStop _).ite m

theorem Supervised.checkLiftedBarrier (h : Supervised s) (x : LineTime) : Supervised (s.checkLiftedBarrier x) := by
  have g : Supervised { s with ixs := { s.ixs with liftBarrierTimer := none } } := h.of_rest
  exact ((g.withdraw _).startMotion _ _).ite h

theorem Supervised.checkResumeBarrier (h : Supervised s) (x : LineTime) : Supervised (s.checkResumeBarrier x) :=
  (h.startMotion _ _).ite h

theorem Supervised.stopMotion (h : Supervised s) (x : LineTime) : Supervised (s.stopMotion x) := by
  unfold State.stopMotion
  dsimp only
  split
  · exact Supervised.enter (Supervised.moveShuttle h.of_rest _) _
  · exact h.of_rest

theorem Supervised.takeStop (h : Supervised s) (x : LineTime) : Supervised (s.takeStop x) := by
  unfold State.takeStop
  have g := h.withdraw (isStopOf s.ixs.index)
  dsimp only
  split
  · exact g.abandon
  · exact g.abandon
  · exact g.stopMotion x
  · exact g.of_state
  · exact g.of_state
  · exact g

theorem Supervised.rampEnded (h : Supervised s) : Supervised s.rampEnded :=
  ((h.moveShuttle .haltedMid).enter _).ite (h.moveShuttle .haltedMid)

/-- R58: a shuttle restarts at the entry into LOWERING only while no cause of level 7 is pending. -/
theorem Supervised.enterLowering (h : Supervised s) : Supervised s.enterLowering := by
  unfold State.enterLowering
  have g : Supervised (({ s with ixs := { s.ixs with loweringTimer := some Config.inPositionTime, sinceCompletion := 0 } }.goStep
      .inPosition).enter .lowering) := h.of_state
  dsimp only
  split
  · exact g
  · rename_i n
    exact g.restart (by simpa using n) nofun

theorem Supervised.commonCompleted (h : Supervised s) : Supervised s.commonCompleted := by
  unfold State.commonCompleted
  have g := h.moveShuttle .atEnd
  dsimp only
  split
  · refine Supervised.enterLowering (Supervised.updatePeers (Supervised.updatePeers (Supervised.updatePeers ?_ _) _) _)
    exact g.of_rest
  · exact g

theorem Supervised.enterSeating (h : Supervised s) : Supervised s.enterSeating := by
  unfold State.enterSeating
  have g := (h.goStep .upstream).enter .seating
  dsimp only
  split
  · exact Supervised.enterWorking g.of_rest
  · split
    · exact g.decideSeating
    · exact (Supervised.raise g.of_rest _).ite g.of_rest

theorem Supervised.commandReturn (h : Supervised s) : Supervised s.commandReturn :=
  (h.moveShuttle _).ite ((h.moveShuttle _).returnFrom _)

theorem Supervised.tryLowered (h : Supervised s) : Supervised s.tryLowered :=
  ((h.queueFrame _).commandReturn.enterSeating).ite h

theorem Supervised.liftDownReported (h : Supervised s) : Supervised s.liftDownReported := by
  unfold State.liftDownReported
  split
  · exact h.abandonSeat
  · exact Supervised.tryLowered h.of_rest
  · exact h.tryLowered

theorem Supervised.lowerPallet (h : Supervised s) : Supervised s.lowerPallet :=
  Supervised.ite (Supervised.liftDownReported h.of_rest) h.of_rest

theorem Supervised.endUpstreamWait (h : Supervised s) (m : Nat) : Supervised (s.endUpstreamWait m) := h.decideSeating.ite h

theorem Supervised.frameRemoved (h : Supervised s) (p : Payload) : Supervised (s.frameRemoved p) := by
  unfold State.frameRemoved
  split
  · exact (h.queueFrame _).ite h
  · exact (h.queueFrame _).ite h
  · exact (h.queueFrame _).ite h
  · exact (h.queueStop _).ite h
  · exact (h.queueFrame _).ite h
  · exact h.queueFrame _
  · split
    · exact (Supervised.tryLowered h.of_rest).ite h
    · exact h
  · exact h
  · exact h
  · exact h

/-! The Shuttle Supervisor. -/

theorem Supervised.reportWord (h : Supervised s) : Supervised s.reportWord := by
  have offered {u : State} (k : Supervised u) : Supervised (if u.ixs.state = .resumeWait ∧ u.ixs.resumeStep = .awaitWord
      ∧ u.ssv.drive ∧ u.atStopSetpoint then u.offerResume else u) := Supervised.ite k.of_rest k
  have passed {u : State} (k : Supervised u) : Supervised (if u.ssv.homeCheck ∧ u.inputs.home ∧ u.inPosition
      then u.passHomeCheck else u) := (Supervised.moveShuttle k.of_rest _).ite k
  exact passed (offered (h.lowerPallet.ite h))

theorem Supervised.sendWord (h : Supervised s) : Supervised s.sendWord :=
  Supervised.ite (Supervised.raise h.of_rest _) h.of_rest

theorem Supervised.startWord (h : Supervised s) : Supervised s.startWord := h.sendWord.reportWord

theorem Supervised.failHoming (h : Supervised s) : Supervised s.failHoming := Supervised.moveShuttle h.of_rest _

theorem Supervised.homingRunEnded (h : Supervised s) : Supervised s.homingRunEnded := by
  unfold State.homingRunEnded
  split
  · exact h.of_rest
  · exact h.failHoming
  · exact h

theorem Supervised.repositionCompleted (h : Supervised s) : Supervised s.repositionCompleted := by
  unfold State.repositionCompleted
  have g : Supervised { s with ssv := { s.ssv with repositionTarget := none, repositionUse := none } } := h.of_rest
  dsimp only
  split
  · exact g.moveShuttle _
  · exact ((g.moveShuttle _).of_rest).ite (g.moveShuttle _)
  · exact g.failHoming
  · exact g.of_rest
  · exact g.of_rest
  · exact (g.failHoming.raise _).ite g.of_rest
  · exact g

theorem Supervised.localCompleted (h : Supervised s) : Supervised s.localCompleted := by
  unfold State.localCompleted
  split
  · exact h.of_rest
  · exact h.repositionCompleted
  · exact h

theorem Supervised.periodOutcome (h : Supervised s) (o : PeriodOutcome) : Supervised (s.periodOutcome o) := by
  unfold State.periodOutcome
  split
  · exact h
  · exact h.commonCompleted.ite h.localCompleted
  · exact h.homingRunEnded.ite h.rampEnded

theorem Supervised.endPeriod (h : Supervised s) : Supervised s.endPeriod := by
  have word {u : State} (k : Supervised u) : Supervised u.wordAtPeriod := k.sendWord.ite k.of_rest
  have report {u : State} (k : Supervised u) : Supervised u.reportPosition := (k.queueFrame _).ite k
  have outcome {u : State} (k : Supervised u) (o : PeriodOutcome) : Supervised (u.outcomeAfterWord o) := k.ite (k.periodOutcome o)
  have ended {p : Pgn} (o : PeriodOutcome) :
      Supervised (({ s with pgn := p } : State).wordAtPeriod.reportPosition.outcomeAfterWord o) :=
    outcome (report (word h.of_rest)) o
  exact ((ended _).reportWord.ite (ended _)).ite h

theorem Supervised.reachOrigin (h : Supervised s) : Supervised s.reachOrigin := by
  have moved {u : State} (k : Supervised u) : Supervised (if u.pgn.kind = .forward then u.moveRecord else u) :=
    k.moveRecord.ite k
  have completed {u : State} (k : Supervised u) : Supervised (if u.pgn.phase = .running ∧ u.pgn.periods = 0
      then { u with pgn := u.pgn.complete }.commonCompleted else u) := (Supervised.commonCompleted k.of_rest).ite k
  exact (completed (moved h.of_rest)).ite h

theorem Supervised.startLocal (h : Supervised s) : Supervised s.startLocal :=
  Supervised.ite (Supervised.ite (Supervised.localCompleted h.of_rest) h.of_rest) h

theorem Supervised.giveUpHoming (h : Supervised s) : Supervised s.giveUpHoming := by
  unfold State.giveUpHoming
  split
  · exact h.of_rest
  · exact h.of_rest
  · exact h.of_rest
  · exact h.of_rest
  · exact h.failHoming
  · exact h

/-- R88: homing starts in FORMING, with no cause of level 7 pending. -/
theorem Supervised.startHoming (h : Supervised s) (m : s.mayHome = true) : Supervised s.startHoming := by
  simp only [State.mayHome, Bool.and_eq_true, beq_iff_eq, Bool.not_eq_true'] at m
  obtain ⟨⟨⟨⟨forming, -⟩, -⟩, none⟩, -⟩ := m
  have on : s.ixs.state ≠ .offline := by rw [forming]; exact nofun
  exact Supervised.ite (h.of_drive none on) (h.of_drive none on)

/-- R63: RESUME is taken with no cause of level 6 or 7 pending. -/
theorem anyPendingAt_of_stopPending {h : Har} (n : h.stopPending = false) : h.anyPendingAt 7 = false := by
  unfold Har.stopPending Har.anyPendingAt at *
  rw [List.any_eq_false] at n ⊢
  intro e m p
  simp only [Bool.and_eq_true, beq_iff_eq] at p
  exact n e m (by simp [p.1, p.2])

theorem Supervised.resumeOffer (h : Supervised s) : Supervised s.resumeOffer :=
  Supervised.ite h.of_rest (Supervised.reposition (Supervised.moveShuttle h.of_rest _) _ _)

/-! The discrete inputs. -/

theorem Supervised.losePressure (h : Supervised s) : Supervised s.losePressure := by
  have lost {u : State} (k : Supervised u) : Supervised (if s.fxs.state = .secured ∧ s.ixs.state.losesPressure
      then u.raise .clampPressureLost else u) := (k.raise _).ite k
  exact (lost h.of_rest).fixtureReported.ite (lost h.of_rest)

theorem Supervised.loseLocators (h : Supervised s) (a b : Bool) : Supervised (s.loseLocators a b) := by
  have g : Supervised { s with inputs := { s.inputs with locator1 := a, locator2 := b } } := h.of_rest
  exact (g.raise _).ite ((Supervised.fixtureReported g.of_rest).ite g)

/-! The frames of members. -/

theorem Supervised.deliverJoin (h : Supervised s) (d : Delivery) (f : JoinFields) : Supervised (s.deliverJoin d f) := by
  have cleared {u : State} (k : Supervised u) : Supervised u.clearAtForming := by
    have marks : Supervised (if u.ixs.state.clearsReady then u.clearReady else u) := (k.updatePeers _).ite k
    exact (marks.queueFrame _).ite marks
  have answered {u : State} (k : Supervised u) : Supervised u.answerJoin := k.ite (k.queueFrame _)
  have adopted {u : State} (k : Supervised u) : Supervised (u.adoptIndex f.index) := by
    have marks : Supervised (if f.index = u.ixs.index then u else u.clearReady) := k.ite (k.updatePeers _)
    exact marks.of_rest.ite k
  have g : Supervised (s.writeJoin d.member f) := h.updatePeer _ _
  exact ((answered (cleared g)).endUpstreamWait _).ite (adopted g)

theorem Supervised.deliverResume (h : Supervised s) (d : Delivery) (x : LineTime) (i : IndexNo) (sp : Nat) :
    Supervised (s.deliverResume d x i sp) := by
  have g := h.updatePeer d.member fun p => { p with resume := true }
  exact ((g.ite (g.raise _)).checkResumeBarrier x).ite h

theorem Supervised.deliverHandover (h : Supervised s) (d : Delivery) (i : IndexNo) (c : Option PalletRecord) :
    Supervised (s.deliverHandover d i c) := by
  have own : Supervised (s.ownHandoverObserved i) := by
    unfold State.ownHandoverObserved
    split
    · exact (Supervised.tryLowered h.of_rest).ite h
    · exact h
  exact own.ite (h.of_rest.ite h)

theorem Supervised.deliverBeat (h : Supervised s) (d : Delivery) (x : LineTime) (st : StepState) :
    Supervised (s.deliverBeat d x st) :=
  (h.updatePeer _ _).ite (Supervised.updatePeer h.of_rest _ _)

/-- Table 0-2: what the owner of a frame's kind does keeps the laws. -/
theorem Supervised.deliver (h : Supervised s) (d : Delivery) (f : Frame) : Supervised (s.deliver d f) := by
  unfold State.deliver
  split
  · exact ((h.updatePeer _ _).takeStop _).ite h
  · exact ((h.updatePeer _ _).checkLiftedBarrier _).ite h
  · exact ((h.updatePeer _ _).endUpstreamWait _).ite (h.updatePeer _ _)
  · exact h.deliverResume _ _ _ _
  · exact (((h.updatePeer _ _).updateImage _ _).checkReadyBarrier).ite h
  · exact h.updatePeer _ _
  · exact h.deliverHandover _ _ _
  · exact ((h.updatePeer _ _).raise _).ite (h.updatePeer _ _)
  · exact h.deliverBeat _ _ _
  · exact h.deliverJoin _ _

/-! Formation. -/

theorem Supervised.fixtureAtJoin (h : Supervised s) : Supervised s.fixtureAtJoin := by
  unfold State.fixtureAtJoin
  split
  · dsimp only
    split
    · exact h.of_rest
    · exact h.of_rest
    · exact h.of_rest
  · exact (h.setFixture _ _).keepOpen

theorem Supervised.raiseInputs (h : Supervised s) : Supervised s.raiseInputs := by
  have fault : Supervised (if s.inputs.driveFault then s.raise .driveFault else s) := (h.raise _).ite h
  exact (fault.raise _).ite fault

end Sys2Proof.Supervision
end

section
/-! The section level, the outputs and the commands: every step keeps the laws of the drive and of the outputs (R94, R116, R148, R150, R152,
R156 to R158). -/

set_option Elab.async false

namespace Sys2Proof.Supervision

open Sys2Proof.Machine Sys2Proof.Safety Sys2Proof.SectionLine

/-- R94, R116, R148, R150, R152, R156 to R158: the laws that hold between commands. -/
structure Upheld (s : State) : Prop extends Supervised s where
  outputs : OutputsFollow s

variable {s t : State}

/-- R116, R156 to R158: the section level and the outputs are formed anew at the end of a command. -/
theorem Supervised.closes (h : Supervised s) : Upheld s.close := ⟨h.close, close_pins s⟩

/-! Commands that form neither the section level nor the outputs anew. -/

/-- R116, R156 to R158: the outputs stay where what they read does. -/
theorem outputs_of_rest (h : OutputsFollow s) (hh : t.har = s.har) (hp : t.pins = s.pins) (hi : t.ixs.state = s.ixs.state)
    (hl : t.sectionLevelNow = s.sectionLevelNow) (hm : t.machPermitNow = s.machPermitNow) : OutputsFollow t := by
  obtain ⟨level, permit, stop, attn⟩ := h
  unfold OutputsFollow State.sectionStopNow State.attnNow
  rw [hh, hp, hi, hl, hm]
  exact ⟨level, permit, stop, attn⟩

/-- An update of what neither the laws nor the outputs read. -/
theorem Upheld.of_rest (h : Upheld s) (hh : t.har = s.har := by rfl) (hd : t.ssv.drive = s.ssv.drive := by rfl)
    (hi : t.ixs.state = s.ixs.state := by rfl) (hp : s.peers = [] → t.peers = [] := by exact id)
    (hn : t.pins = s.pins := by rfl) (hl : t.sectionLevelNow = s.sectionLevelNow := by rfl)
    (hm : t.machPermitNow = s.machPermitNow := by rfl) : Upheld t :=
  ⟨h.toSupervised.of_rest hh hd hi hp, outputs_of_rest h.outputs hh hn hi hl hm⟩

theorem Upheld.ite {b : Prop} [Decidable b] (h : Upheld s) (k : Upheld t) : Upheld (if b then s else t) := by
  split
  · exact h
  · exact k

theorem Upheld.respond (h : Upheld s) (n : Nat) (k : Byte) (x : Status) (f : List Byte) : Upheld (s.respond n k x f) := h.of_rest

theorem Upheld.refuse (h : Upheld s) (n : Nat) (k : Byte) (x : Status) : Upheld (s.refuse n k x) := h.of_rest

/-- R158: the mask is read by ATTN alone, which is formed anew with it. -/
theorem Upheld.setMask (h : Upheld s) (m : BitVec 7) :
    Upheld ({ s with har := { s.har with attnMask := m } } : State).refreshPins :=
  ⟨Supervised.refreshPins (h.toSupervised.of_har rfl rfl rfl (.inl ⟨rfl, id⟩)), rfl, rfl, rfl, rfl⟩

/-- R88: the start of homing asserts the drive, which no output reads. -/
theorem Upheld.startHoming (h : Upheld s) (m : s.mayHome = true) : Upheld s.startHoming := by
  refine ⟨h.toSupervised.startHoming m, ?_⟩
  unfold State.startHoming
  dsimp only
  split
  · exact outputs_of_rest h.outputs rfl rfl rfl rfl rfl
  · exact outputs_of_rest h.outputs rfl rfl rfl rfl rfl

/-- R116: MACH_PERMIT needs a SECURED fixture, and one that leaves LOCATING for CLAMPING is not SECURED before or after. -/
theorem Upheld.checkLocated (h : Upheld s) : Upheld s.checkLocated := by
  unfold State.checkLocated
  split
  · rename_i e
    exact h.of_rest (hm := by unfold State.machPermitNow; rw [e.1]; rfl)
  · exact h

/-! The configuration items (R161). -/

/-- R152: with no cause pending the pair is 0 and 0. -/
theorem pair_of_none {h : Har} (n : ∀ e ∈ h.causes, e.pending = false) : h.pair = (0, 0) := by
  rcases (announcedFrom_spec h.causes 0 (0, 0) (Nat.le_refl _)).1 with e | ⟨i, e, m, p, -⟩
  · exact e
  · rw [n e (List.mem_of_getElem? m)] at p
    cases p

/-- R158: with no cause pending ATTN is not asserted. -/
theorem attnNow_of_none (n : ∀ e ∈ s.har.causes, e.pending = false) : s.attnNow = false := by
  unfold State.attnNow
  rw [List.any_eq_false]
  intro e m
  simp [n e m]

/-- R147, R150: in OFFLINE no cause is pending, whatever level one of them is given. -/
theorem Upheld.setLevel (h : Upheld s) (o : s.ixs.state = .offline) (c : Cause) (n : Nat) :
    Upheld { s with har := { s.har with causes := s.har.causes.set c.number ⟨n, s.har.isPending c⟩ } } := by
  obtain ⟨none, drive, peers⟩ := h.quiet o
  obtain ⟨level, permit, stop, attn⟩ := h.outputs
  have idle : s.har.isPending c = false := by
    by_contra p
    exact h.on_of_pending (by simpa using p) o
  have none' : ∀ e ∈ s.har.causes.set c.number ⟨n, s.har.isPending c⟩, e.pending = false := by
    intro e m
    rcases List.mem_or_eq_of_mem_set m with m | rfl
    · exact none e m
    · exact idle
  refine ⟨⟨fun _ => ⟨none', drive, peers⟩, fun _ => drive, ?_⟩, level, permit, stop, ?_⟩
  · exact h.announced.trans ((pair_of_none none).trans (pair_of_none none').symm)
  · exact attn.trans ((attnNow_of_none none).trans (attnNow_of_none none').symm)

/-- R156: in OFFLINE there is no peer record whose level the place of the station in MEMBERS could leave out. -/
theorem Upheld.setItems (h : Upheld s) (o : s.ixs.state = .offline) (it : Items) : Upheld { s with items := it } := by
  obtain ⟨-, -, peers⟩ := h.quiet o
  exact h.of_rest (hl := by simp [State.sectionLevelNow, peers, othersLevel])

/-! One microsecond. -/

/-- R156: elapsed time changes no recorded level. -/
theorem othersLevel_age (own n : Nat) (l : List Peer) : othersLevel own n (l.map Peer.age) = othersLevel own n l := by
  induction l generalizing n with
  | nil => rfl
  | cons p l ih => simp [othersLevel, ih, Peer.age]

@[simp] theorem settleOn_state (f : Fxs) (i : Inputs) : (f.settleOn i).state = f.state := by
  unfold Fxs.settleOn
  split <;> rfl

theorem Upheld.runOn (h : Upheld s) : Upheld s.runOn := by
  unfold State.runOn
  split
  · exact h.of_rest
  · refine h.of_rest (hp := fun e => ?_) (hl := ?_) (hm := ?_)
    · simp [State.tick, State.advance, e]
    · exact congrArg (max s.har.announcedLevel) (othersLevel_age _ 0 s.peers)
    · have fixture : s.tick.fxs.state = s.fxs.state := settleOn_state _ _
      unfold State.machPermitNow
      rw [fixture]
      rfl

/-! The commands. -/

/-- Every state that an answer gives satisfies the laws. -/
def AnswerUpheld (a : Answer) : Prop := ∀ t : State, a = .next t → Upheld t

theorem Upheld.next (h : Upheld s) : AnswerUpheld (.next s) := fun _ e => by cases e; exact h

theorem AnswerUpheld.ite {b : Prop} [Decidable b] {x y : Answer} (h : AnswerUpheld x) (k : AnswerUpheld y) :
    AnswerUpheld (if b then x else y) := by
  split
  · exact h
  · exact k

/-- An answer that is the end of a command. -/
theorem Supervised.nextClosed (h : Supervised s) : AnswerUpheld (.next s.close) := h.closes.next

/-- An answer that takes place under a condition, and leaves the state as it is without it. -/
theorem Upheld.nextIf (h : Upheld s) {b : Prop} [Decidable b] (k : Supervised t) :
    AnswerUpheld (if b then .next t.close else .next s) := k.nextClosed.ite h.next

theorem Upheld.execSetItem (h : Upheld s) (w : ItemWrite) : AnswerUpheld (execSetItem w s) := by
  unfold Machine.execSetItem
  dsimp only
  split
  · rename_i o
    have off : s.ixs.state = .offline := by simpa [State.offline] using o
    split
    · split
      · exact ((h.setLevel off _ _).respond _ _ _ _).next
      · exact (h.refuse _ _ _).next
    · split
      · exact ((h.setItems off _).respond _ _ _ _).next
      · exact (h.refuse _ _ _).next
  · exact (h.refuse _ _ _).next

/-- R163 to R165: JOIN leaves OFFLINE with no cause pending, and its end forms the outputs. -/
theorem Supervised.takeJoin (h : Supervised s) : Upheld s.takeJoin := by
  have g : Supervised s.formed := h.of_state
  exact (g.fixtureAtJoin.queueFrame _).raiseInputs.closes

theorem Upheld.execJoin (h : Upheld s) : AnswerUpheld (execJoin s) :=
  .ite (.ite (.ite (h.takeJoin.respond _ _ _ _).next (h.refuse _ _ _).next) (h.refuse _ _ _).next) (h.refuse _ _ _).next

theorem Supervised.takeRecord (h : Supervised s) (r : PalletRecord) : Upheld (s.takeRecord r) :=
  (((h.setFixture _ _).goStep _).enter _).seatFixture.closes

theorem Upheld.execLoadEntry (h : Upheld s) (os : List Byte) : AnswerUpheld (execLoadEntry os s) := by
  unfold Machine.execLoadEntry
  split
  · exact (h.refuse _ _ _).next
  · exact .ite (h.refuse _ _ _).next (.ite (h.refuse _ _ _).next ((h.takeRecord _).respond _ _ _ _).next)

theorem Upheld.execLoadFixture (h : Upheld s) (os : List Byte) : AnswerUpheld (execLoadFixture os s) := by
  unfold Machine.execLoadFixture
  split
  · exact (h.refuse _ _ _).next
  · exact .ite (h.refuse _ _ _).next (.ite (h.refuse _ _ _).next ((h.takeRecord _).respond _ _ _ _).next)

theorem Upheld.execGetIncoming (h : Upheld s) : AnswerUpheld (execGetIncoming s) := by
  unfold Machine.execGetIncoming
  refine .ite (h.refuse _ _ _).next ?_
  split <;> exact (h.respond _ _ _ _).next

theorem Upheld.execGetPeer (h : Upheld s) (b : Byte) : AnswerUpheld (execGetPeer b s) := by
  unfold Machine.execGetPeer
  refine .ite (h.refuse _ _ _).next (.ite (h.refuse _ _ _).next ?_)
  split
  · exact (h.respond _ _ _ _).next
  · exact (h.refuse _ _ _).next

theorem Upheld.execClearCause (h : Upheld s) (b : Byte) : AnswerUpheld (execClearCause b s) := by
  unfold Machine.execClearCause
  split
  · exact (h.refuse _ _ _).next
  · rename_i c _
    have cleared : Supervised (if c.latched then s.unpend c else s) := (h.unpend c).ite h.toSupervised
    exact .ite (h.refuse _ _ _).next (.ite (h.refuse _ _ _).next (cleared.closes.respond _ _ _ _).next)

theorem Upheld.execReportResult (h : Upheld s) (b : Byte) : AnswerUpheld (execReportResult b s) := by
  unfold Machine.execReportResult
  split
  · exact (h.refuse _ _ _).next
  · exact .ite (Upheld.next h.of_rest) (h.refuse _ _ _).next

theorem Upheld.execTakeExitRecord (h : Upheld s) : AnswerUpheld (execTakeExitRecord s) := by
  unfold Machine.execTakeExitRecord
  refine .ite (h.refuse _ _ _).next ?_
  split
  · have g : ∀ r : Rst, Supervised { s with rst := r } := fun _ => h.toSupervised.of_rest
    exact ((g _).closes.respond _ _ _ _).next
  · exact (h.respond _ _ _ _).next

/-- R63, R94: RESUME raises the drive in STOPPED, with no cause of level 7 pending. -/
theorem Upheld.execResume (h : Upheld s) : AnswerUpheld (execResume s) := by
  unfold Machine.execResume
  split
  · rename_i stopped
    split
    · exact (h.refuse _ _ _).next
    · rename_i n
      have none : s.har.anyPendingAt 7 = false := anyPendingAt_of_stopPending (by simpa using n)
      have on : s.ixs.state ≠ .offline := by rw [stopped]; exact nofun
      have g : Supervised s.resumeDrive := Supervised.ite (h.of_drive none on) (h.of_drive none on)
      exact ((g.enter _).resumeOffer.closes.respond _ _ _ _).next
  · exact (h.refuse _ _ _).next

/-- R160, R180: the state after reset satisfies the laws. -/
theorem upheld_resetBy (cause : ResetCause) : Upheld (State.resetBy cause) := by
  obtain ⟨-, -, -, quiet, dropped, announced, outputs⟩ := resetSatisfiesInvariants cause
  exact ⟨⟨quiet, dropped, announced⟩, outputs⟩

theorem upheld_resetPart (s : State) (cause : ResetCause) : Upheld (s.resetPart cause) := (upheld_resetBy cause).of_rest

theorem Upheld.execReset (h : Upheld s) (cause : ResetCause) (b : Bool) : AnswerUpheld (execReset cause b s) :=
  .ite (.ite (upheld_resetPart _ cause).next (Upheld.next h.of_rest)) (upheld_resetPart s cause).next

theorem Upheld.execFrameStart (h : Upheld s) (own : Bool) : AnswerUpheld (execFrameStart own s) :=
  .ite (.ite (.ite h.next (Upheld.next h.of_rest)) (Upheld.next h.of_rest)) h.next

/-- R6: a mark that removes a frame raises LINE_TRANSMIT_FAILURE, and any other changes the Line Port alone. -/
theorem Upheld.marked (h : Upheld s) : Upheld s.marked := by
  have link : Upheld { s with lpt := s.lpt.mark.1 } := h.of_rest
  unfold State.marked
  dsimp only
  split
  · exact ((link.raise _).frameRemoved _).closes
  · exact link

theorem Upheld.take (h : Upheld s) (f : Frame) : Upheld (s.take f) := by
  have link : Upheld { s with lpt := s.lpt.observed (s.isOwnAttempt f) } := h.of_rest
  rcases take_cases s f with ⟨-, e⟩ | ⟨-, -, e⟩ | ⟨-, -, e⟩ <;> rw [e]
  · exact link
  · exact Supervised.closes link.toSupervised.of_rest
  · have heard : Supervised (({ s with lpt := s.lpt.observed (s.isOwnAttempt f) } : State).hear
        (s.memberList.idxOf f.header.sender)) := link.updatePeer _ _
    exact (heard.deliver _ f).closes

theorem Upheld.observe (h : Upheld s) (f : Frame) : Upheld (s.observe f) := by
  have yields : Upheld (s.yieldTo f) := Upheld.ite h.of_rest h
  rcases observe_cases s f with ⟨-, e⟩ | ⟨-, -, e⟩ | ⟨-, -, e⟩ <;> rw [e]
  · exact h
  · exact yields.marked
  · exact yields.take f

theorem Upheld.execBeatInstant (h : Upheld s) : AnswerUpheld (execBeatInstant s) := by
  unfold Machine.execBeatInstant
  split
  · rename_i b _
    have taken : Supervised (s.takeBeat b) := h.toSupervised.of_rest
    exact ((taken.raise _).ite taken).nextClosed
  · exact h.next

theorem Upheld.execHomingStart (h : Upheld s) : AnswerUpheld (execHomingStart s) := by
  unfold Machine.execHomingStart
  split
  · rename_i m
    exact (h.startHoming m).next
  · exact h.next

theorem Upheld.execHomeSensorChange (h : Upheld s) (on : Bool) : AnswerUpheld (execHomeSensorChange on s) :=
  .ite h.next (.ite (Upheld.next h.of_rest) (Upheld.next h.of_rest))

theorem Upheld.execLiftUpSensorOn (h : Upheld s) : AnswerUpheld (execLiftUpSensorOn s) :=
  .ite h.next (.ite (Supervised.liftReported h.toSupervised.of_rest).nextClosed (Upheld.next h.of_rest))

theorem Upheld.execLiftDownSensorOn (h : Upheld s) : AnswerUpheld (execLiftDownSensorOn s) :=
  .ite h.next (.ite (Supervised.liftDownReported h.toSupervised.of_rest).nextClosed (Upheld.next h.of_rest))

theorem Upheld.execLiftSensorOff (h : Upheld s) (up : Bool) : AnswerUpheld (execLiftSensorOff up s) :=
  .ite h.next (.ite (Upheld.next h.of_rest) (Upheld.next h.of_rest))

theorem Upheld.execMachClearDrop (h : Upheld s) : AnswerUpheld (execMachClearDrop s) :=
  .ite (.ite (Supervised.raise h.toSupervised.of_rest _).nextClosed (Upheld.next h.of_rest)) h.next

/-- R94, R116, R148, R150, R152, R156 to R158: every command keeps the laws. -/
theorem Upheld.exec (h : Upheld s) (i : Instr) : AnswerUpheld (exec i s) := by
  have sup := h.toSupervised
  cases i with
  | setItem w => exact h.execSetItem w
  | join => exact h.execJoin
  | getStatus => exact (h.respond _ _ _ _).next
  | getCauses => exact (h.respond _ _ _ _).next
  | clearCause c => exact h.execClearCause c
  | setAttnMask m => exact .ite ((h.setMask _).respond _ _ _ _).next (h.refuse _ _ _).next
  | reportResult c => exact h.execReportResult c
  | loadEntry os => exact h.execLoadEntry os
  | loadFixture os => exact h.execLoadFixture os
  | declareEmpty => exact .ite ((sup.setFixture _ _).keepOpen.closes.respond _ _ _ _).next (h.refuse _ _ _).next
  | getFixtureRecord => exact (h.respond _ _ _ _).next
  | getIncoming => exact h.execGetIncoming
  | takeExitRecord => exact h.execTakeExitRecord
  | getImage => exact .ite (h.refuse _ _ _).next (h.respond _ _ _ _).next
  | getPeer n => exact h.execGetPeer n
  | resume => exact h.execResume
  | malformedRequest k => exact (h.refuse _ _ _).next
  | noneTransaction n => exact Upheld.next h.of_rest
  | reset c b => exact h.execReset c b
  | linkIdleSeen => exact Upheld.next h.of_rest
  | frameStart own => exact h.execFrameStart own
  | arbitrationLost => exact Upheld.next h.of_rest
  | frameMarked => exact h.marked.next.ite h.next
  | foreignFrameObserved f => exact (h.observe _).next
  | beatObserved x p => exact (h.observe _).next
  | joinObserved x p => exact (h.observe _).next
  | readyObserved x p => exact (h.observe _).next
  | liftedObserved x p => exact (h.observe _).next
  | loweredObserved x p => exact (h.observe _).next
  | resumeObserved x p q => exact (h.observe _).next
  | stopObserved x p q r => exact (h.observe _).next
  | holdObserved x p q => exact (h.observe _).next
  | positionObserved x p => exact (h.observe _).next
  | handoverObserved x p q => exact (h.observe _).next
  | foreignFrameTimerExpiry => exact h.nextIf sup.of_rest
  | beatInstant => exact h.execBeatInstant
  | memberSilent n => exact h.nextIf (sup.updatePeer _ _)
  | joinRepetition => exact .ite (Upheld.next h.of_rest) h.next
  | readyOffer => exact h.nextIf sup.of_state
  | formingExit => exact h.nextIf sup.of_state
  | homingStart => exact h.execHomingStart
  | liftBarrierTimerExpiry => exact h.nextIf (Supervised.raise sup.of_rest _)
  | loweringTimerExpiry => exact h.nextIf (Supervised.raise sup.of_rest _)
  | upstreamTimerExpiry => exact h.nextIf (Supervised.raise sup.of_rest _)
  | homingTimerExpiry => exact h.nextIf (Supervised.raise (Supervised.giveUpHoming sup.of_rest) _)
  | homeCheckTimerExpiry => exact h.nextIf (Supervised.raise sup.of_rest _)
  | releaseStepTimerExpiry => exact h.nextIf (Supervised.raise sup.of_rest _)
  | locateTimerExpiry => exact h.nextIf (Supervised.raise sup.of_rest _)
  | clampTimerExpiry => exact h.nextIf (Supervised.raise sup.of_rest _)
  | settleMarkSet => exact h.nextIf ((Supervised.fixtureReported sup.of_rest).ite sup.of_rest)
  | profileOrigin => exact h.nextIf sup.reachOrigin
  | localProfileStart => exact h.nextIf sup.startLocal
  | periodEnd => exact h.nextIf sup.endPeriod
  | setpointWordRepeat => exact h.nextIf sup.startWord
  | setpointWordEnd => exact h.nextIf sup.startWord
  | machClearDrop => exact h.execMachClearDrop
  | emergencyOn => exact .ite h.next (Supervised.raise sup.of_rest _).nextClosed
  | driveFaultOn => exact .ite h.next (Supervised.raise sup.of_rest _).nextClosed
  | clampPressureOff => exact h.nextIf sup.losePressure
  | clampPressureMade => exact Upheld.next h.of_rest
  | locatorsEngaged a b =>
    have g : Upheld { s with inputs := { s.inputs with locator1 := s.inputs.locator1 || a, locator2 := s.inputs.locator2 || b } } :=
      h.of_rest
    exact g.checkLocated.next
  | locatorOff a b => exact h.nextIf (sup.loseLocators a b)
  | palletPresentChange b => exact Upheld.next h.of_rest
  | plateCodeChange c => exact Upheld.next h.of_rest
  | liftUpSensorOn => exact h.execLiftUpSensorOn
  | liftDownSensorOn => exact h.execLiftDownSensorOn
  | liftSensorOff up => exact h.execLiftSensorOff up
  | homeSensorChange on => exact h.execHomeSensorChange on
  | encoderEdge d => exact Upheld.next h.of_rest
  | machClearOn => exact Upheld.next h.of_rest
  | emergencyOff => exact Upheld.next h.of_rest
  | driveFaultOff => exact Upheld.next h.of_rest
  | homeCapture b => exact Upheld.next h.of_rest

theorem Upheld.step (h : Upheld s) : AnswerUpheld (step s) := by
  unfold Machine.step
  split
  · have g : ∀ l : List Instr, Upheld { s with pending := l } := fun _ => h.of_rest
    exact (g _).exec _
  · exact h.runOn.next

theorem upheld_iff : Upheld s ↔ OfflineQuiet s ∧ DriveDropped s ∧ PairAnnounced s ∧ OutputsFollow s :=
  ⟨fun h => ⟨h.quiet, h.dropped, h.announced, h.outputs⟩, fun ⟨a, b, c, d⟩ => ⟨⟨a, b, c⟩, d⟩⟩

/-- Settles O58: every operation keeps the laws of `Supervised`; the outputs are formed anew at the end of a command (`Supervised.closes`),
and a command without that end leaves what they read. -/
theorem driveAndOutputsKept : Obligations.DriveAndOutputsKept :=
  fun _ t inv e => upheld_iff.1 ((upheld_iff.2 inv).step t e)

end Sys2Proof.Supervision
end

section
/-! POSITION and its test against the copy of the frame start (R100, R101). -/

set_option Elab.async false

namespace Sys2Proof.Supervision

open Sys2Proof.Machine Sys2Proof.Safety Sys2Proof.Claims

/-- R101: the copy lets a POSITION be tested where both are of one common profile that waits, runs, ramps or has been stopped. -/
theorem copyTests_iff (c : FrameCopy) (k : ProfileCode) :
    copyTests c k = true ↔ ((k = .forward ∧ c.kind = .forward) ∨ (k = .resume ∧ c.kind = .resume))
      ∧ (c.phase = .waiting ∨ c.phase = .running ∨ c.phase = .ramping ∨ (c.phase = .idle ∧ c.stopHeld = true)) := by
  have kinds : ((k == .forward || k == .resume) && c.kind.common && c.kind.code == k) = true
      ↔ (k = .forward ∧ c.kind = .forward) ∨ (k = .resume ∧ c.kind = .resume) := by
    cases k <;> cases c.kind <;> decide
  rw [copyTests, Bool.and_eq_true, kinds]
  simp [or_assoc]

/-- R101: the test of a POSITION against the copy taken at its frame start. -/
theorem positionDeviates_iff {s : State} {f : PositionFields} {c : FrameCopy} (copy : s.ssv.frameCopy = some c) :
    s.positionDeviates f = true ↔ Deviates s f c := by
  unfold State.positionDeviates Deviates
  rw [copy]
  simp only [Bool.and_eq_true, beq_iff_eq, copyTests_iff, deviates, decide_eq_true_eq, and_assoc]

/-- Settles O33: POSITION of another member that deviates raises SYNC_DEVIATION at its delivery, and any other only writes its columns. -/
theorem positionTested : Obligations.PositionTested := by
  intro s h f m own clock copy arrives levels copied u
  have run : exec (.positionObserved h f) s
      = .next (if !own && u.positionDeviates f then u.raise .syncDeviation else u).close :=
    congrArg Host.Outcome.next (observe_arrives arrives)
  have test : u.positionDeviates f = true ↔ Deviates s f copy := positionDeviates_iff (s := u) copied
  have on : u.ixs.state ≠ .offline := by
    obtain ⟨-, -, -, on, -⟩ := arrives
    exact on
  refine ⟨_, run, fun other far => ?_, fun passes => ?_⟩
  · rw [if_pos (by rw [other, test.2 far]; rfl)]
    exact ⟨raise_close_follows u _ rfl, raise_close_pending u .syncDeviation on
      (StepTime.level_pos (s := s) levels (by decide)) levels.1 rfl⟩
  · rw [if_neg]
    · exact close_follows u
    · rw [Bool.and_eq_true, test, Bool.not_eq_true']
      rintro ⟨other, far⟩
      exact passes.elim (fun mine => by rw [mine] at other; cases other) fun agrees => agrees far

end Sys2Proof.Supervision
end

section
/-! The fixture's own moves: the open command, the report of OPEN or SECURED, the settle marks and the sensors (Table 6-3, R104 to R113,
R117). -/

namespace Sys2Proof.FixtureRelease

open Sys2Proof.Machine Sys2Proof.Safety Sys2Proof.Claims Sys2Proof.SectionLine Sys2Proof.StepTime

variable {s : State}

/-! The inputs. -/

theorem bothOn_iff (i : Inputs) : i.bothOn = true ↔ i.locator1 = true ∧ i.locator2 = true := Bool.and_eq_true_iff

theorem bothOff_iff (i : Inputs) : i.bothOff = true ↔ ¬(i.locator1 = true ∨ i.locator2 = true) := by
  simp [Inputs.bothOff]

/-! The open command and its steps. -/

/-- R107: opening step 2 goes on while a locator is engaged. -/
theorem checkOpen_engaged {f : Fxs} {i : Inputs} (h : i.locator1 = true ∨ i.locator2 = true) : f.checkOpen i = f :=
  if_neg (by rw [bothOff_iff]; exact not_not_intro h)

/-- R107: opening step 2 ends with both locators off. -/
theorem checkOpen_withdrawn {f : Fxs} {i : Inputs} (h : ¬(i.locator1 = true ∨ i.locator2 = true)) :
    f.checkOpen i = { f with state := .open, openingStep := .none, stepTimer := none } :=
  if_pos ((bothOff_iff i).2 h)

/-- R106: the open command to a fixture that is neither OPEN nor OPENING. -/
theorem openStep1_eq (shut : ¬(s.fxs.state = .open ∨ s.fxs.state = .opening)) :
    s.fxs.openStep1 s.inputs (Config.timeout s.items.releaseStepTimeout) = Opens s := by
  unfold Opens Fxs.openStep1 Fxs.openStep2
  rw [if_neg shut, timeout_eq]
  by_cases pressure : s.inputs.pressure = true
  · rw [if_pos pressure, if_pos pressure]
  · rw [if_neg pressure, if_neg pressure]
    by_cases engaged : s.inputs.locator1 = true ∨ s.inputs.locator2 = true
    · rw [if_pos engaged, checkOpen_engaged engaged]
    · rw [if_neg engaged, checkOpen_withdrawn engaged]

/-- Table 6-3, R106, R107: the open command. -/
theorem commandOpen_eq (s : State) : s.fxs.commandOpen s.inputs (Config.timeout s.items.releaseStepTimeout) = Opens s := by
  by_cases complete : s.fxs.state = .open ∨ s.fxs.state = .opening
  · unfold Opens
    rw [if_pos complete]
    rcases complete with e | e <;> simp [Fxs.commandOpen, e]
  · rw [← openStep1_eq complete]
    unfold Fxs.commandOpen
    split <;> simp_all

/-! The report of OPEN or SECURED (R47, R53, R60). -/

/-- R53, R60: the station waits for its fixture, in SEATING or in ABANDONING. -/
def AwaitsFixture (s : State) : Prop :=
  (s.ixs.state = .seating ∧ s.ixs.step = .seat) ∨ (s.ixs.state = .abandoning ∧ s.ixs.step = .abandonSeat)

/-- R53, R60: a report that ends the wait. -/
theorem fixtureReported_ends (waits : AwaitsFixture s) (settled : s.fixtureSettled = true) :
    s.fixtureReported = { s with ixs := { s.ixs with state := .working, step := .none, lowerExpired := none } } := by
  unfold State.fixtureReported
  rcases waits with ⟨state, step⟩ | ⟨state, step⟩ <;> rw [state, step] <;> exact if_pos settled

/-- A report for which the sequencer does not wait: not of OPEN in RELEASING, and not of a settled fixture in a wait for it. -/
theorem fixtureReported_unawaited (lifts : s.ixs.state = .releasing → s.fxs.state ≠ .open)
    (waits : AwaitsFixture s → s.fixtureSettled = false) : s.fixtureReported = s := by
  unfold State.fixtureReported
  split
  · rename_i state
    exact if_neg (lifts state)
  · rename_i state step
    exact if_neg (by rw [waits (.inl ⟨state, step⟩)]; decide)
  · rename_i state step
    exact if_neg (by rw [waits (.inr ⟨state, step⟩)]; decide)
  · rfl

/-- R53, R60: a SECURED fixture is awaited with the status HELD or UNKNOWN. -/
theorem fixtureSettled_secured (h : s.fxs.state = .secured) : s.fixtureSettled = true ↔ s.rst.status ≠ .empty := by
  simp [State.fixtureSettled, h]

/-! The settle marks (R110, R111). -/

/-- R111: a further mark may be set. -/
theorem mayMark_iff (s : State) : s.mayMark = true ↔
    (s.fxs.state = .clamping ∨ s.fxs.state = .secured) ∧ s.inputs.pressure = true ∧ s.fxs.marks < 7 := by
  rw [State.mayMark, Bool.and_eq_true, settling_iff, decide_eq_true_eq, and_assoc]
  rfl

/-- R110: the mark of SETTLE_STAGE, or a later one, comes to a CLAMPING fixture. -/
def MarkSecures (s : State) : Prop := s.fxs.state = .clamping ∧ s.items.settleStage ≤ s.fxs.marks + 1

/-- R111, Table 6-4: the fixture with its next mark set. -/
def Marked (s : State) : Fxs :=
  { s.fxs with settle := 8 * 2 ^ (s.fxs.marks + 1) * 1000, marks := s.fxs.marks + 1 }

theorem setSettleMark_holds (h : ¬MarkSecures s) : s.setSettleMark = { s with fxs := Marked s } := by
  have mark : s.fxs.setMark s.items.settleStage = Marked s := if_neg h
  unfold State.setSettleMark
  rw [mark]
  exact if_neg fun ⟨was, now⟩ => by
    have kept : s.fxs.state = .secured := now
    rw [was] at kept
    cases kept

theorem setSettleMark_secures (h : MarkSecures s) :
    s.setSettleMark = ({ s with fxs := { Marked s with state := .secured, clampTimer := none } } : State).fixtureReported := by
  have mark : s.fxs.setMark s.items.settleStage = { Marked s with state := .secured, clampTimer := none } := if_pos h
  unfold State.setSettleMark
  rw [mark]
  exact if_pos ⟨h.1, rfl⟩

/-- Settles O43: a mark that secures is reported (`setSettleMark_secures`), and the report ends a wait only with the status HELD or
UNKNOWN. -/
theorem settleMarkSet : Obligations.SettleMarkSet := by
  intro s may f secures waits
  refine ⟨fun not => if_neg (mt (mayMark_iff s).1 not), fun yes => ?_⟩
  have run : exec .settleMarkSet s = .next s.setSettleMark.close := if_pos ((mayMark_iff s).2 yes)
  let v : State := { s with fxs := { Marked s with state := .secured, clampTimer := none } }
  have settled : v.fixtureSettled = true ↔ s.rst.status ≠ .empty := fixtureSettled_secured rfl
  refine ⟨_, run, fun below => ?_, fun reached idle => ?_, fun reached wait => ?_⟩
  · rw [setSettleMark_holds below]
    exact close_follows _
  · have unawaited : v.fixtureReported = v := fixtureReported_unawaited (fun _ => nofun) fun awaits =>
      Bool.eq_false_iff.2 fun done => idle ⟨settled.1 done, awaits⟩
    rw [setSettleMark_secures reached, show State.fixtureReported _ = v from unawaited]
    exact close_follows v
  · obtain ⟨status, awaits⟩ := wait
    rw [setSettleMark_secures reached, fixtureReported_ends (s := v) awaits (settled.2 status)]
    exact close_follows _

/-! The clamp pressure (R106, R111, R113). -/

/-- R113: the states in which a pressure lost in SECURED raises its cause. -/
theorem losesPressure_iff (st : SeqState) : st.losesPressure = true ↔ st ∉ [.offline, .releasing, .abandoning] := by
  cases st <;> decide

/-- R106, R111: the pressure is taken as off, the fixture then being `f`. -/
def PressureLost (s : State) (f : Fxs) : State := { s with inputs := { s.inputs with pressure := false }, fxs := f }

theorem pressureOff_clamping {f : Fxs} (i : Inputs) (n : Nat) (h : f.state = .clamping) :
    f.pressureOff i n = { f with settle := 0, marks := 0 } := by
  cases f
  cases h
  rfl

theorem pressureOff_secured {f : Fxs} (i : Inputs) (n : Nat) (h : f.state = .secured) :
    f.pressureOff i n = { f with state := .clamping, settle := 0, marks := 0 } := by
  cases f
  cases h
  rfl

/-- R106: in opening step 1 the pressure off begins step 2. -/
theorem pressureOff_opening {f : Fxs} {i : Inputs} (n : Nat) (h : f.state = .opening) (step : f.openingStep = .one)
    (engaged : i.locator1 = true ∨ i.locator2 = true) :
    f.pressureOff i n = { f with openingStep := .two, withdraw := true, stepTimer := some n } := by
  cases f
  cases h
  cases step
  exact checkOpen_engaged engaged

theorem pressureOff_else {f : Fxs} (i : Inputs) (n : Nat)
    (h : f.state = .open ∨ f.state = .locating ∨ (f.state = .opening ∧ f.openingStep ≠ .one)) : f.pressureOff i n = f := by
  unfold Fxs.pressureOff
  rcases h with h | h | ⟨h, step⟩ <;> rw [h]
  cases e : f.openingStep
  case one => exact absurd e step
  all_goals rfl

/-- R113: a SECURED fixture falls back to CLAMPING, and the cause is raised where the sequencer's state has it so. -/
theorem losePressure_secured (h : s.fxs.state = .secured) :
    s.losePressure = (let u := PressureLost s { s.fxs with state := .clamping, settle := 0, marks := 0 }
      if s.ixs.state.losesPressure = true then u.raise .clampPressureLost else u) := by
  unfold State.losePressure
  simp only [pressureOff_secured _ _ h, h, true_and]
  exact if_neg nofun

/-- R106, R111: in every other state the pressure does what `pressureOff` gives, short of the end of an opening. -/
theorem losePressure_quiet_follows {f : Fxs} (h : s.fxs.state ≠ .secured)
    (off : s.fxs.pressureOff { s.inputs with pressure := false } (Config.timeout s.items.releaseStepTimeout) = f)
    (shut : s.fxs.state = .opening → f.state ≠ .open) : Follows [] (PressureLost s f) s.losePressure.close := by
  have lost : s.losePressure = PressureLost s f := by
    unfold State.losePressure
    simp only [off, h, false_and, if_false]
    exact if_neg fun ⟨was, now⟩ => shut was now
  rw [lost]
  exact close_follows _

/-- R113: what follows from a pressure lost in SECURED. -/
theorem losePressure_secured_follows (levels : LevelsLegal s) (h : s.fxs.state = .secured) :
    Follows [.clampPressureLost] (PressureLost s { s.fxs with state := .clamping, settle := 0, marks := 0 }) s.losePressure.close
      ∧ (s.ixs.state ∉ [.offline, .releasing, .abandoning] → s.losePressure.close.har.isPending .clampPressureLost = true)
      ∧ (s.ixs.state ∈ [.offline, .releasing, .abandoning] →
        s.losePressure.close.har.isPending .clampPressureLost = s.har.isPending .clampPressureLost) := by
  rw [losePressure_secured h]
  dsimp only
  by_cases raises : s.ixs.state.losesPressure = true
  · have out := (losesPressure_iff _).1 raises
    have on : s.ixs.state ≠ .offline := fun e => out (by rw [e]; decide)
    rw [if_pos raises]
    exact ⟨raise_close_follows _ _ rfl, fun _ => raise_close_pending _ .clampPressureLost on (level_pos (s := s) levels (by decide))
      levels.1 rfl, fun within => absurd within out⟩
  · rw [if_neg raises]
    exact ⟨close_follows_except _ _ rfl, fun out => absurd ((losesPressure_iff _).2 out) raises, fun _ =>
      (close_same _).pending .clampPressureLost rfl⟩

/-! The locators (R104, R107, R109, R112, R117). -/

/-- R109, R110, R117: a LOCATING fixture with both locators engaged is CLAMPING, with no timer in OFFLINE. -/
theorem checkLocated_eq (s : State) : s.checkLocated = { s with
    fxs := if s.fxs.state = .locating ∧ s.inputs.locator1 = true ∧ s.inputs.locator2 = true then
        { s.fxs with state := .clamping, release := false, stepTimer := none
                     clampTimer := if s.ixs.state = .offline then none else some (Timeout s.items.clampTimeout) }
      else s.fxs } := by
  unfold State.checkLocated
  simp only [bothOn_iff, Fxs.beginClamping, timeout_eq, State.offline, beq_iff_eq]
  split <;> rfl

/-- R104: the locators are taken at two values. -/
def LocatorsTaken (s : State) (a b : Bool) : State := { s with inputs := { s.inputs with locator1 := a, locator2 := b } }

theorem holds_iff (x : FixtureState) : x.holds = true ↔ x = .clamping ∨ x = .secured := by cases x <;> decide

/-- R112: a locator lost from CLAMPING or SECURED. -/
theorem loseLocators_holding (a b : Bool) (h : s.fxs.state = .clamping ∨ s.fxs.state = .secured) :
    s.loseLocators a b = (LocatorsTaken s a b).raise .locateFault := if_pos ((holds_iff _).2 h)

/-- R107: a locator lost elsewhere, short of the end of an opening. -/
theorem loseLocators_else {a b : Bool} (h : s.fxs.state = .open ∨ s.fxs.state = .locating
    ∨ (s.fxs.state = .opening ∧ (s.fxs.openingStep ≠ .two ∨ a = true ∨ b = true))) :
    s.loseLocators a b = LocatorsTaken s a b := by
  have loose : ¬s.fxs.state.holds = true := by
    rw [holds_iff]
    rcases h with h | h | ⟨h, -⟩ <;> simp [h]
  have shut : ¬((LocatorsTaken s a b).fxs.state = .opening ∧ (LocatorsTaken s a b).fxs.openingStep = .two
      ∧ (LocatorsTaken s a b).inputs.bothOff = true) := by
    rintro ⟨state, step, off⟩
    rw [bothOff_iff] at off
    rcases h with h | h | ⟨-, h | h⟩
    · cases h.symm.trans state
    · cases h.symm.trans state
    · exact h step
    · exact off h
  exact (if_neg loose).trans (if_neg shut)

/-- Settles O44: values taken as they are, the locators by `checkLocated_eq` and `loseLocators_holding`, the pressure by what `pressureOff`
makes of each fixture state (`losePressure_secured_follows`, `losePressure_quiet_follows`). -/
theorem fixtureSensors : Obligations.FixtureSensors := by
  intro s levels
  refine ⟨rfl, fun _ => rfl, fun _ => rfl, fun a b => congrArg Host.Outcome.next (checkLocated_eq _), fun made => ?_,
    fun a b lost => ?_⟩
  · refine ⟨s.losePressure.close, if_pos made, fun clamping => ?_, losePressure_secured_follows levels,
      fun opening step engaged => ?_, fun other => ?_⟩
    · exact losePressure_quiet_follows (by simp [clamping]) (pressureOff_clamping _ _ clamping) (by simp [clamping])
    · rw [← timeout_eq]
      exact losePressure_quiet_follows (by simp [opening]) (pressureOff_opening _ opening step engaged) (by simp [opening])
    · refine losePressure_quiet_follows ?_ (pressureOff_else _ _ other) fun opening => by simp [opening]
      rcases other with h | h | ⟨h, -⟩ <;> simp [h]
  · have run : exec (.locatorOff a b) s = .next (s.loseLocators a b).close := if_pos (by simpa using lost)
    refine ⟨_, run, fun holds => ?_, fun loose => ?_⟩
    · rw [loseLocators_holding a b holds]
      exact ⟨raise_close_follows _ _ rfl, fun on =>
        raise_close_pending (LocatorsTaken s a b) .locateFault on (level_pos (s := s) levels (by decide)) levels.1 rfl⟩
    · rw [loseLocators_else loose]
      exact close_follows _

end Sys2Proof.FixtureRelease
end

section
/-! JOIN, taken in OFFLINE (R163 to R165, R114, R117, R136, R146, R160). -/

namespace Sys2Proof.FixtureRelease

open Sys2Proof.Machine Sys2Proof.Safety Sys2Proof.Claims Sys2Proof.SectionLine Sys2Proof.StepTime Sys2Proof.Supervision

variable {s : State}

/-! Several latched causes raised in one command. -/

/-- The Hold Arbiter has changed `s` to `u` through the causes of `exc` alone. -/
structure HoldActs (exc : List Cause) (s u : State) : Prop where
  frame : HoldFrame s u
  moves : HoldMoves s u
  same : SameCauses (· ∉ exc) s.har u.har
  effects : EveryCause s → Effects exc s u

theorem HoldActs.trans {l m : List Cause} {s u v : State} (h : HoldActs l s u) (k : HoldActs m u v) (d : ∀ c ∈ l, c ∉ m) :
    HoldActs (l ++ m) s v where
  frame := h.frame.trans k.frame
  moves := h.moves.trans k.moves
  same := (h.same.mono fun _ i j => i (List.mem_append_left m j)).trans (k.same.mono fun _ i j => i (List.mem_append_right l j))
  effects n := (h.effects n).trans n (k.effects (h.same.length.trans n)) d

/-- A cause that is raised where a test has it so. -/
theorem holdActs_raiseIf (b : Prop) [Decidable b] (c : Cause) (s : State) : HoldActs [c] s (if b then s.raise c else s) := by
  split
  · exact ⟨raise_frame s c, raise_moves s c, (raise_same s c).mono (by simp), raise_effects s c⟩
  · exact ⟨.rfl' s, .rfl' s, .rfl' _ _, fun _ => .rfl' _ s⟩

theorem HoldActs.follows {exc : List Cause} {s u : State} (h : HoldActs exc s u) (latched : ∀ c ∈ exc, c.latched = true) :
    Follows exc s u.close := close_follows_of h.frame h.moves h.same h.effects latched

/-- R96, R150: the drive fault, where its input is on at JOIN. -/
def FaultRaised (s : State) : State := if s.inputs.driveFault = true then s.raise .driveFault else s

theorem faultRaised_holdActs (s : State) : HoldActs [.driveFault] s (FaultRaised s) := holdActs_raiseIf _ _ s

/-- R96, R150: what JOIN does with the two inputs. -/
theorem raiseInputs_holdActs (s : State) : HoldActs [.driveFault, .emergency] s s.raiseInputs :=
  (faultRaised_holdActs s).trans (holdActs_raiseIf _ .emergency (FaultRaised s)) (by decide)

/-- R96, R150: the cause of each of the two inputs that is on is pending then. -/
theorem raiseInputs_pending (levels : LevelsLegal s) (state : s.ixs.state = .forming) :
    (s.inputs.emergency = true → s.raiseInputs.close.har.isPending .emergency = true)
      ∧ (s.inputs.driveFault = true → s.raiseInputs.close.har.isPending .driveFault = true) := by
  have fault := faultRaised_holdActs s
  have forming : (FaultRaised s).ixs.state ≠ .offline := by
    rcases fault.frame.ixs with e | ⟨ready, -⟩
    · rw [e, state]
      decide
    · rw [state] at ready
      cases ready
  have second : s.raiseInputs = if (FaultRaised s).inputs.emergency = true then (FaultRaised s).raise .emergency
    else FaultRaised s := rfl
  refine ⟨fun on => ?_, fun on => ?_⟩
  · rw [second, if_pos (by rw [fault.frame.inputs]; exact on)]
    exact raise_close_pending _ _ forming (by rw [fault.same.level]; exact level_pos levels (by decide))
      (fault.same.length.trans levels.1) rfl
  · have first : (FaultRaised s).har.isPending .driveFault = true := by
      rw [FaultRaised, if_pos on]
      exact raise_pending s _ (by simp [State.offline, state]) (level_pos levels (by decide)) levels.1
    have later := (holdActs_raiseIf ((FaultRaised s).inputs.emergency = true) .emergency (FaultRaised s)).same
    rw [(close_same _).pending .driveFault rfl, second, later.pending .driveFault (by decide)]
    exact first

/-! The blocks that JOIN sets up. -/

/-- R114, R117: the fixture of a station that joins. -/
def FixtureJoined (s : State) : Fxs :=
  if s.inputs.palletPresent = false then Opens s
  else if s.fxs.state = .locating then { s.fxs with stepTimer := some (Timeout s.items.locateTimeout) }
  else if s.fxs.state = .clamping then { s.fxs with clampTimer := some (Timeout s.items.clampTimeout) }
  else s.fxs

/-- R164, R165, R117, R136: a station that joins, before any frame or cause. -/
def Joined (s : State) : State :=
  { s with
    items := { s.items with stopDecel := max s.items.stopDecel s.items.accel, homingSpeed := max s.items.homingSpeed s.items.accel }
    ixs := { s.ixs with state := .forming, index := 0, joinTimer := some 500000 }
    peers := List.replicate s.memberCount Peer.initial
    sim := { slots := List.replicate s.memberCount .unknown, exitSlot := .unknown }
    ltu := { s.ltu with nextBeat := some (firstLater s.ltu.lineTime), samples := [] }
    rst := { s.rst with status := if s.inputs.palletPresent then .unknown else .empty, record := none }
    fxs := FixtureJoined s }

/-- R114, R117, R120: the fixture in FORMING, where nothing waits for it. -/
theorem fixtureAtJoin_eq (s : State) (state : s.ixs.state = .forming) : s.fixtureAtJoin = { s with
    rst := { s.rst with status := if s.inputs.palletPresent then .unknown else .empty, record := none }
    fxs := FixtureJoined s } := by
  unfold State.fixtureAtJoin FixtureJoined
  cases present : s.inputs.palletPresent
  case false =>
    let v : State := { s.setFixture .empty none with fxs := Opens s }
    have unawaited : v.fixtureReported = v := by
      have idle : v.ixs.state = .forming := state
      refine fixtureReported_unawaited (fun e => ?_) fun e => ?_
      · cases idle.symm.trans e
      · rcases e with ⟨e, -⟩ | ⟨e, -⟩ <;> cases idle.symm.trans e
    have opened : (s.setFixture .empty none).keepOpen = v.fixtureReported :=
      congrArg (fun f => State.fixtureReported { s.setFixture .empty none with fxs := f }) (commandOpen_eq s)
    exact opened.trans unawaited
  case true =>
    dsimp only
    cases e : s.fxs.state <;> simp [State.setFixture, e, timeout_eq]

theorem formed_joined (s : State) : s.formed.fixtureAtJoin = Joined s := fixtureAtJoin_eq _ rfl

/-- R163: JOIN is taken with the four items written and a good membership list. -/
theorem exec_join {n sec p : Nat} {l : List Nat} (off : s.ixs.state = .offline)
    (number : s.items.stationNumber = some n) (sect : s.items.sectionId = some sec) (pitch : s.items.pitch = some p)
    (members : s.items.members = some l) (mem : n ∈ l) (nodup : l.Nodup) :
    exec .join s = .next (Responded s.takeJoin 4 2 .done []) := by
  have offline : s.offline = true := by simp [State.offline, off]
  have complete : s.items.complete = true := by simp [Items.complete, number, sect, pitch, members]
  have good : s.items.membersGood = true := by simp [Items.membersGood, number, members, mem, nodup]
  rw [← responded_eq]
  exact (if_pos offline).trans ((if_pos complete).trans (if_pos good))

/-- R9, R167: the joined station with its JOIN queued. -/
def JoinQueued (s : State) : State := (Joined s).queueFrame (Joined s).joinPayload

theorem takeJoin_eq (s : State) : s.takeJoin = (JoinQueued s).raiseInputs.close := by
  rw [State.takeJoin, formed_joined]
  rfl

theorem takeJoin_follows (s : State) : Follows [.driveFault, .emergency] (JoinQueued s) s.takeJoin := by
  rw [takeJoin_eq]
  exact (raiseInputs_holdActs _).follows (by decide)

theorem takeJoin_everyCause (h : EveryCause s) : EveryCause s.takeJoin := by
  rw [takeJoin_eq]
  exact (close_same _).length.trans ((raiseInputs_holdActs (JoinQueued s)).same.length.trans h)

/-! What follows from a station that joins. -/

/-- R152: no pending cause is of a higher level than the one announced. -/
theorem level_le_announced (every : EveryCause s) (pair : PairAnnounced s) {c : Cause} (p : s.har.isPending c = true) :
    s.har.level c ≤ s.har.announcedLevel :=
  (level_le_pair every p).trans_eq (congrArg Prod.fst pair).symm

/-- R148: a station in FORMING that is not in step has NOT_IN_STEP pending, of its floor at least. -/
theorem notInStep_pending {exc : List Cause} {u t : State} (follows : Follows exc u t) (levels : LevelsLegal u)
    (state : u.ixs.state = .forming) (ixs : t.ixs = u.ixs) (step : u.ltu.step ≠ .fine) :
    t.har.isPending .notInStep = true ∧ 4 ≤ t.har.level .notInStep := by
  have floor : 4 ≤ u.har.level .notInStep := (levels.2 .notInStep).1
  refine ⟨?_, by rwa [follows.levels]⟩
  rw [follows.settled levels.1 .notInStep (by decide) (level_pos levels (by decide)), condition_iff]
  refine ⟨?_, by rwa [follows.ltu]⟩
  rw [ixs, state]
  decide

/-- R153: where the announced level has come up from 0, HOLD is queued. -/
theorem hold_queued {exc : List Cause} {u t : State} (follows : Follows exc u t) (every : EveryCause u) (pair : PairAnnounced u)
    (zero : u.har.announcedLevel = 0) (high : 4 ≤ t.har.announcedLevel) : ∃ f ∈ t.lpt.queue, f.payload.kind = .hold := by
  obtain ⟨f, queued, hold⟩ := follows.hold every pair fun ⟨same, _⟩ => by omega
  exact ⟨f, queued, by rw [hold]; rfl⟩

/-- R153, R167: a JOIN just queued stands in the queue at the end of the command. -/
theorem join_queued {exc : List Cause} {s t : State} (follows : Follows exc (s.queueFrame s.joinPayload) t) :
    ∃ f ∈ t.lpt.queue, f.payload.kind = .join := by
  obtain ⟨f, queued, join⟩ := follows.join ⟨_, mem_insertFrame_self _ _, rfl⟩
  exact ⟨f, queued, by rw [join]; rfl⟩

/-- R157, R116: in FORMING the section is stopped and the machining unit is not permitted. -/
theorem outputs_forming {t : State} (outputs : OutputsFollow t) (state : t.ixs.state = .forming) :
    t.pins.sectionStop = true ∧ t.pins.machPermit = false := by
  obtain ⟨-, permit, stop, -⟩ := outputs
  rw [permit, stop]
  simp [State.sectionStopNow, State.machPermitNow, state]

/-- Settles O7: the station is set up as `Joined`, with its JOIN queued, and what the Hold Arbiter then does is `takeJoin_follows`. -/
theorem joinFormsTheStation : Obligations.JoinFormsTheStation := by
  intro s n sec p l off levels quiet pair step number sect pitch members mem nodup
  have follows := takeJoin_follows s
  have every : EveryCause s.takeJoin := takeJoin_everyCause levels.1
  have ixs : s.takeJoin.ixs = (Joined s).ixs := follows.ixs.resolve_right nofun
  have count : s.memberCount = l.length := congrArg (fun x : Option (List Nat) => (x.getD []).length) members
  obtain ⟨calm, -, -⟩ := quiet off
  have zero : s.har.announcedLevel = 0 := congrArg Prod.fst (Eq.trans pair (pair_of_none calm))
  obtain ⟨pending, floor⟩ := notInStep_pending follows levels rfl ixs step
  have high : 4 ≤ s.takeJoin.har.announcedLevel :=
    floor.trans (level_le_announced every (follows.announced levels.1 pair) pending)
  obtain ⟨emergency, fault⟩ := raiseInputs_pending (s := JoinQueued s) levels rfl
  rw [← takeJoin_eq] at emergency fault
  refine ⟨s.takeJoin, exec_join off number sect pitch members mem nodup, ⟨fun b out => ?_, follows.freeTaken, follows.pending⟩,
    follows.items, ixs, ?_, ?_, follows.ltu, follows.rst, follows.fxs, pending, high, emergency, fault, join_queued follows,
    hold_queued follows levels.1 pair zero high, outputs_forming follows.outputs (by rw [ixs]; rfl)⟩
  · cases b
    case inputs => exact follows.inputs
    case sampling => exact follows.sampling
    case cpt => exact follows.cpt
    all_goals exact absurd (by decide) out
  · rw [← count]
    exact follows.peers
  · rw [← count]
    exact follows.sim

end Sys2Proof.FixtureRelease
end

section
/-! REPORT_RESULT and TAKE_EXIT_RECORD (R121, R133). -/

namespace Sys2Proof.PalletRecords

open Sys2Proof.Machine Sys2Proof.Safety Sys2Proof.Claims

/-- R121: REPORT_RESULT in WORKING with the fixture HELD. -/
theorem exec_reportResult {s : State} (r : MachResult) (working : s.ixs.state = .working) (held : s.rst.status = .held) :
    exec (.reportResult (BitVec.ofNat 8 r.code)) s
      = .next (Responded { s with ixs := { s.ixs with pendingResult := some r } } 5 7 .done []) := by
  change execReportResult _ s = _
  rw [execReportResult, SectionLine.machResult_octet]
  dsimp only
  rw [if_pos ⟨working, held⟩]
  exact congrArg Host.Outcome.next (StepTime.responded_eq _ 5 7 .done [])

/-- R133: TAKE_EXIT_RECORD at the unload station outside OFFLINE, by what stands at the head of the exit queue. -/
theorem exec_takeExitRecord {s : State} (on : s.ixs.state ≠ .offline) (unload : s.isUnload = true) :
    exec .takeExitRecord s = .next (match s.rst.exitQueue with
      | r :: rest => Responded (State.close { s with rst := { s.rst with exitQueue := rest } }) 4 13 .done (recordOctets r)
      | [] => Responded s 4 13 .nothing []) := by
  change execTakeExitRecord s = _
  have here : ¬(s.offline || !s.isUnload) = true := by simp [State.offline, on, unload]
  rw [execTakeExitRecord, if_neg here]
  cases s.rst.exitQueue with
  | nil => exact congrArg Host.Outcome.next (StepTime.responded_eq s 4 13 .nothing [])
  | cons r rest => exact congrArg Host.Outcome.next (StepTime.responded_eq _ 4 13 .done (recordOctets r))

/-- Settles O17: the head leaves the queue, and the end of the command follows from that at once. -/
theorem resultAndExitRecordTaken : Obligations.ResultAndExitRecordTaken := by
  intro s
  refine ⟨exec_reportResult, fun on unload => ⟨fun r rest queue => ?_, fun empty => ?_⟩⟩
  · have taken := exec_takeExitRecord on unload
    rw [queue] at taken
    exact ⟨_, taken, close_follows _⟩
  · rw [exec_takeExitRecord on unload, empty]

end Sys2Proof.PalletRecords
end

section
/-! SET_ITEM, GET_STATUS, GET_CAUSES, CLEAR_CAUSE and SET_ATTN_MASK (R147, R148, R151, R158, R159, R161, R175). -/

namespace Sys2Proof.HoldCauses

open Sys2Proof.Machine Sys2Proof.Safety Sys2Proof.Claims Sys2Proof.SectionLine Sys2Proof.StepTime

variable {s : State}

/-! CLEAR_CAUSE. -/

/-- R151: CLEAR_CAUSE of a self-clearing cause whose condition is absent clears nothing of its own. -/
theorem clearCause_unlatched {c : Cause} (on : s.ixs.state ≠ .offline) (absent : ¬Condition s c) (l : c.latched = false) :
    exec (.clearCause (BitVec.ofNat 8 c.number)) s = .next (Responded s.close 5 5 .done []) := by
  change execClearCause _ s = _
  unfold execClearCause
  rw [ofNumber_octet]
  dsimp only
  have here : ¬s.offline = true := by simpa [State.offline] using on
  rw [if_neg here, if_neg (mt (condition_iff s c).1 absent), if_neg (by simp [l]), ← responded_eq]
  rfl

/-- Settles O12: a latched cause is cleared before the command ends, and with nothing to clear the command only ends. -/
theorem clearCauseTaken : Obligations.ClearCauseTaken := by
  refine fun s c => ⟨condition_iff s c, fun on every absent => ?_⟩
  cases l : c.latched with
  | true =>
    refine ⟨_, clearCause_taken on absent l,
      fun _ => ⟨unpend_close_follows s c l, unpend_close_pending s c every l⟩, fun idle => ?_⟩
    rw [unpend_idle s c (by simpa using idle)]
    exact close_follows s
  | false => exact ⟨_, clearCause_unlatched on absent l, by simp, fun _ => close_follows s⟩

/-! SET_ATTN_MASK. -/

/-- R158: another mask, with ATTN formed anew. -/
def Masked (s : State) (m : Byte) : State :=
  State.refreshPins { s with har := { s.har with attnMask := m.setWidth 7 } }

/-- R158: the bit of weight `2 ^ k` of the octet stands for the level `k + 1`. -/
theorem maskHolds_octet (m : Byte) (level : Nat) :
    maskHolds (m.setWidth 7) level = true ↔ ∃ k : Nat, level = k + 1 ∧ k < 7 ∧ m.getLsbD k = true := by
  cases level with
  | zero => simp [maskHolds]
  | succ k => simp [maskHolds, BitVec.getLsbD_setWidth]

theorem masked_attn (s : State) (m : Byte) : (Masked s m).pins.attn = true ↔
    ∃ e ∈ s.har.causes, e.pending = true ∧ ∃ k : Nat, e.level = k + 1 ∧ k < 7 ∧ m.getLsbD k = true := by
  change (s.har.causes.any fun e => e.pending && maskHolds (m.setWidth 7) e.level) = true ↔ _
  simp only [List.any_eq_true, Bool.and_eq_true, maskHolds_octet]

theorem masked_onlyIn (s : State) (m : Byte) : OnlyIn [.har, .pins] s (Masked s m) := by
  refine ⟨fun b out => ?_, rfl, rfl⟩
  cases b
  case har | pins => exact absurd (by decide) out
  all_goals rfl

theorem exec_setAttnMask (s : State) {m : Byte} (h : m.toNat ≤ 127) :
    exec (.setAttnMask m) s = .next (Responded (Masked s m) 5 6 .done []) := by
  rw [← responded_eq]
  exact if_pos h

/-- Settles O14: ATTN is read off the mask octet by `maskHolds_octet`, and only the mask and what `refreshPins` forms have changed. -/
theorem attnFollowsMask : Obligations.AttnFollowsMask := fun s m h =>
  ⟨Masked s m, exec_setAttnMask s h, masked_onlyIn s m, rfl, ⟨rfl, rfl, rfl, rfl⟩, masked_attn s m⟩

/-! SET_ITEM. -/

/-- R161: the items store the value. -/
theorem exec_setItem_store {w : ItemWrite} {it : Items} (off : s.ixs.state = .offline) (store : s.items.store w = some it) :
    exec (.setItem w) s = .next (Stored s (4 + (itemFields w).length) it) := by
  change execSetItem w s = _
  have here : s.offline = true := by simp [State.offline, off]
  unfold execSetItem Stored
  rw [← responded_eq]
  dsimp only
  rw [if_pos here]
  cases w
  case causeLevel => cases store
  all_goals
    dsimp only
    rw [store]
    rfl

/-- Table 10-1. -/
theorem inRange_eq {lo hi n : Nat} (low : lo ≤ n) (high : n ≤ hi) : inRange lo hi n = some n := if_pos ⟨low, high⟩

theorem exec_setItem_members {l : List Byte} (off : s.ixs.state = .offline) (few : 2 ≤ l.length) (many : l.length ≤ 16)
    (stations : ∀ b ∈ l, 1 ≤ b.toNat ∧ b.toNat ≤ 63) :
    exec (.setItem (.members l)) s
      = .next (Stored s (6 + l.length) { s.items with members := some (l.map BitVec.toNat) }) := by
  have value : membersValue l = some (l.map BitVec.toNat) := if_pos ⟨few, many, by simpa using stations⟩
  have length : 6 + l.length = 4 + (itemFields (.members l)).length := by
    simp only [itemFields, List.length_cons]
    omega
  rw [length]
  exact exec_setItem_store off (congrArg (Option.map _) value)

/-- R147: the causes with another level for `c`. -/
def LevelGiven (h : Har) (c : Cause) (n : Nat) : Har := { h with causes := h.causes.set c.number ⟨n, h.isPending c⟩ }

theorem levelGiven_self {h : Har} (every : h.causes.length = Cause.all.length) (c : Cause) (n : Nat) :
    (LevelGiven h c n).causes.getD c.number ⟨0, false⟩ = ⟨n, h.isPending c⟩ := by
  have place : c.number < h.causes.length := every ▸ c.number_lt
  simp [LevelGiven, List.getD_eq_getElem?_getD, place]

theorem levelGiven_other (h : Har) {c d : Cause} (ne : d ≠ c) (n : Nat) :
    (LevelGiven h c n).causes.getD d.number ⟨0, false⟩ = h.causes.getD d.number ⟨0, false⟩ := by
  have place : c.number ≠ d.number := fun e => ne (Cause.number_inj e.symm)
  simp [LevelGiven, List.getD_eq_getElem?_getD, place]

/-- R147: a level changes no pending flag. -/
theorem levelGiven_isPending {h : Har} (every : h.causes.length = Cause.all.length) (c d : Cause) (n : Nat) :
    (LevelGiven h c n).isPending d = h.isPending d := by
  by_cases e : d = c
  · rw [e]
    exact (congrArg CauseEntry.pending (levelGiven_self every c n) :)
  · exact congrArg CauseEntry.pending (levelGiven_other h e n)

/-- R147, R161: CAUSE_LEVEL, raised to the cause's floor. -/
theorem exec_setItem_causeLevel (off : s.ixs.state = .offline) (c : Cause) {v : Byte} (h : v.toNat ≤ 7) :
    exec (.setItem (.causeLevel (BitVec.ofNat 8 c.number) v)) s
      = .next (Responded { s with har := LevelGiven s.har c (max c.floor v.toNat) } 7 1 .done []) := by
  change execSetItem _ s = _
  have here : s.offline = true := by simp [State.offline, off]
  have value : causeLevelValue (BitVec.ofNat 8 c.number) v = some (c, max c.floor v.toNat) := by
    rw [causeLevelValue, ofNumber_octet]
    exact if_pos h
  unfold execSetItem
  dsimp only
  rw [if_pos here, value, ← responded_eq]
  rfl

theorem har_onlyIn (s : State) (h : Har) : OnlyIn [.har] s { s with har := h } := by
  refine ⟨fun b out => ?_, rfl, rfl⟩
  cases b
  case har => exact absurd (by decide) out
  all_goals rfl

/-- Settles O5: item by item, by the row of Table 10-1 that `Items.store` follows. -/
theorem setItemStoresHeldForm : Obligations.SetItemStoresHeldForm := by
  intro s off
  refine ⟨fun _ lo hi => ?_, fun _ lo hi => ?_, fun _ => exec_setItem_members off, fun _ lo hi => ?_, fun _ lo hi => ?_,
    fun _ lo hi => ?_, fun _ lo hi => ?_, fun _ lo hi => ?_, fun _ lo hi => ?_, fun _ lo hi => ?_, fun _ lo hi => ?_,
    fun _ lo hi => ⟨?_, ?_, ?_, ?_, ?_⟩, fun c v every h => ?level⟩
  case level =>
    exact ⟨_, exec_setItem_causeLevel off c h, congrArg CauseEntry.level (levelGiven_self every c _),
      fun d ne => congrArg CauseEntry.level (levelGiven_other s.har ne _), fun d => levelGiven_isPending every c d _, rfl,
      har_onlyIn s _⟩
  all_goals exact exec_setItem_store off (congrArg (Option.map _) (inRange_eq lo hi))

/-! GET_CAUSES and GET_STATUS. -/

/-- Parts of one length stand one after another: part `i` begins `k * i` octets in. -/
theorem take_drop_flatMap {α : Type} {k : Nat} {f : α → List Byte} (len : ∀ a, (f a).length = k) (r : List Byte) {l : List α}
    {i : Nat} {a : α} (at_i : l[i]? = some a) : ((l.flatMap f ++ r).drop (k * i)).take k = f a := by
  induction l generalizing i with
  | nil => cases at_i
  | cons b l ih =>
    rw [List.flatMap_cons, List.append_assoc]
    cases i with
    | zero =>
      cases at_i
      exact List.take_left' (len a)
    | succ i =>
      have next : (f b ++ (l.flatMap f ++ r)).drop (k * (i + 1)) = (l.flatMap f ++ r).drop (k * i) := by
        rw [Nat.mul_succ, Nat.add_comm, ← List.drop_drop, List.drop_left' (len b)]
      rw [next]
      exact ih at_i

/-- Table 9-1: the number of a cause is its place in the list. -/
theorem all_number (c : Cause) : Cause.all[c.number]? = some c := by cases c <;> rfl

/-- R159: what follows the 24 causes. -/
def CausesTail (h : Har) : List Byte :=
  [BitVec.ofNat 8 h.announcedLevel, BitVec.ofNat 8 h.announcedCause, BitVec.ofNat 8 h.sectionLevel, h.attnMask.setWidth 8]

theorem causesFields_eq (s : State) : s.causesFields = Cause.all.flatMap (causeFields s.har) ++ CausesTail s.har := by
  have mask : BitVec.ofNat 8 s.har.attnMask.toNat = s.har.attnMask.setWidth 8 := BitVec.ofNat_toNat ..
  unfold State.causesFields CausesTail
  rw [← mask]
  simp only [octets_one, List.append_assoc, List.cons_append, List.nil_append]

/-- R159: 24 causes of 3 octets. -/
theorem causes_length (h : Har) : (Cause.all.flatMap (causeFields h)).length = 72 := rfl

/-- R175, Table 11-7: the octets before the encoder count. -/
def StatusHead (s : State) : List Byte :=
  octets 1 s.ixs.state.code ++ (octets 2 s.ixs.index.toNat
    ++ (octets 1 s.ltu.step.code ++ octets 1 s.ssv.shuttle.code ++ octets 1 s.ssv.liftState.code))

/-- R175, Table 11-7: the octets of the fixture and of the inputs, after the setpoint. -/
def StatusInputs (s : State) : List Byte :=
  (octets 1 s.fxs.state.code ++ octets 1 s.rst.status.code ++ octets 1 s.fxs.marks)
    ++ ([s.inputs.pressure, s.inputs.locator1, s.inputs.locator2, s.inputs.palletPresent].map flagOctet
      ++ (octets 2 s.inputs.plate.toNat
        ++ [s.inputs.machClear, s.inputs.emergency, s.inputs.driveFault, s.inputs.home, s.inputs.liftUp,
          s.inputs.liftDown].map flagOctet))

/-- R175, Table 11-7: the last octets. -/
def StatusLevels (s : State) : List Byte :=
  octets 1 s.har.announcedLevel ++ octets 1 s.har.announcedCause ++ octets 1 s.har.sectionLevel
    ++ [if s.cpt.resetCause = .powerOn then 0 else 1]

theorem statusFields_eq (s : State) : s.statusFields
    = StatusHead s ++ (signedOctets 4 s.encoderCount ++ (signedOctets 4 s.pgn.setpoint ++ (StatusInputs s ++ StatusLevels s))) := by
  have cause : octets 1 (resetCauseCode s.cpt.resetCause) = [if s.cpt.resetCause = .powerOn then 0 else 1] := by
    cases s.cpt.resetCause <;> rfl
  unfold State.statusFields StatusHead StatusInputs StatusLevels
  rw [cause]
  simp only [List.append_assoc, List.map_cons, List.map_nil]

@[simp] theorem signedOctets_length (k : Nat) (v : Int) : (signedOctets k v).length = k := octets_length k _

theorem statusHead_length (s : State) : (StatusHead s).length = 6 := by simp [StatusHead]

theorem statusInputs_length (s : State) : (StatusInputs s).length = 15 := by simp [StatusInputs]

theorem statusFields_length (s : State) : s.statusFields.length = 33 := by
  simp [statusFields_eq, statusHead_length, statusInputs_length, StatusLevels]

/-- Octets that stand after `n` others. -/
theorem drop_past {a : List Byte} {n : Nat} (len : a.length = n) (k : Nat) (r : List Byte) :
    (a ++ r).drop (n + k) = r.drop k := by
  rw [← List.drop_drop, List.drop_left' len]

theorem statusFields_drop_inputs (s : State) (k : Nat) :
    s.statusFields.drop (14 + k) = (StatusInputs s ++ StatusLevels s).drop k := by
  rw [statusFields_eq, show 14 + k = 6 + (4 + (4 + k)) by omega, drop_past (statusHead_length s),
    drop_past (signedOctets_length 4 _), drop_past (signedOctets_length 4 _)]

/-- Settles O8: each part stands at its offset, the parts before it being of fixed lengths; numbers of more octets are read back. -/
theorem statusAndCausesRead : Obligations.StatusAndCausesRead := by
  intro s
  refine ⟨⟨s.causesFields, congrArg Host.Outcome.next (responded_eq s 4 4 .done _), rfl, fun c => ?cause, ?tail⟩,
    s.statusFields, congrArg Host.Outcome.next (responded_eq s 4 3 .done _), statusFields_length s, ?state, ?index, ?codes,
    ?encoder, fun lo hi => ?setpoint, ?fixture, ?inputs, ?plate, ?more, ?last⟩
  case cause =>
    rw [causesFields_eq]
    exact take_drop_flatMap (f := causeFields s.har) (fun _ => rfl) _ (all_number c)
  case tail =>
    rw [causesFields_eq]
    exact List.drop_left' (causes_length s.har)
  case state => rw [statusFields_eq]; rfl
  case index => rw [statusFields_eq]; rfl
  case codes => rw [statusFields_eq]; rfl
  case encoder =>
    have lo := s.ssv.encoder.le_toInt
    have hi := s.ssv.encoder.toInt_lt
    rw [statusFields_eq, List.drop_left' (statusHead_length s), List.take_left' (signedOctets_length 4 _)]
    exact octetsInt_signedOctets (k := 4) (by decide) lo hi
  case setpoint =>
    rw [statusFields_eq, drop_past (statusHead_length s) 4, List.drop_left' (signedOctets_length 4 _),
      List.take_left' (signedOctets_length 4 _)]
    exact octetsInt_signedOctets (k := 4) (by decide) lo (by omega)
  case fixture => rw [statusFields_drop_inputs s 0]; rfl
  case inputs => rw [statusFields_drop_inputs s 3]; rfl
  case plate =>
    rw [statusFields_drop_inputs s 7]
    exact octetsNat_octets 2 _ (by omega)
  case more => rw [statusFields_drop_inputs s 9]; rfl
  case last =>
    rw [statusFields_drop_inputs s 15]
    exact List.drop_left' (statusInputs_length s)

end Sys2Proof.HoldCauses
end

section
/-! The refusals of SET_ITEM and JOIN, and the events of FORMING: the JOIN repetition and the exit (R161, R163, R167, R171). -/

namespace Sys2Proof.SectionFormation

open Sys2Proof.Machine Sys2Proof.Safety Sys2Proof.Claims Sys2Proof.SectionLine Sys2Proof.StepTime Sys2Proof.MotionProfiles

variable {s : State}

/-! Values outside their ranges. -/

/-- Table 10-1. -/
theorem inRange_eq_none {lo hi n : Nat} (out : ¬(lo ≤ n ∧ n ≤ hi)) : inRange lo hi n = none := if_neg out

/-- Table 10-1: a membership list of a wrong length, or with an entry that is no station number. -/
theorem membersValue_eq_none {l : List Byte} (out : ¬InItemRange (.members l)) : membersValue l = none :=
  if_neg (by simpa [InItemRange] using out)

/-- R147: a number that no cause has, or a level above 7. -/
theorem causeLevelValue_eq_none {c v : Byte} (out : ¬InItemRange (.causeLevel c v)) : causeLevelValue c v = none := by
  unfold causeLevelValue
  cases e : Cause.ofNumber c.toNat with
  | none => rfl
  | some d =>
    obtain ⟨number, -⟩ : ∃ h : c.toNat < Cause.all.length, Cause.all[c.toNat] = d := List.getElem?_eq_some_iff.1 e
    have known : c.toNat ≤ 23 := Nat.le_of_lt_succ number
    exact if_neg fun level => out ⟨known, level⟩

/-- R161: the items store no value outside its item's range. -/
theorem store_eq_none (it : Items) {w : ItemWrite} (out : ¬InItemRange w) : it.store w = none := by
  cases w
  case members => exact congrArg (Option.map _) (membersValue_eq_none out)
  case causeLevel | unknown => rfl
  all_goals exact congrArg (Option.map _) (inRange_eq_none out)

/-! SET_ITEM. -/

theorem refused_eq (s : State) (n : Nat) (kind : Byte) (status : Status) : s.refuse n kind status = Refused s n kind status :=
  responded_eq s n kind status []

/-- R161: outside OFFLINE. -/
theorem exec_setItem_refusedState (on : s.ixs.state ≠ .offline) (w : ItemWrite) :
    exec (.setItem w) s = .next (Refused s (4 + (itemFields w).length) 1 .refusedState) := by
  rw [← refused_eq]
  exact if_neg (by simpa [State.offline] using on)

/-- R161: in OFFLINE, a value outside its item's range or a name that is none of Table 10-1. -/
theorem exec_setItem_refusedValue (off : s.ixs.state = .offline) {w : ItemWrite} (out : ¬InItemRange w) :
    exec (.setItem w) s = .next (Refused s (4 + (itemFields w).length) 1 .refusedValue) := by
  rw [← refused_eq]
  refine (if_pos (by simp [State.offline, off])).trans ?_
  cases w
  all_goals dsimp only
  case causeLevel =>
    rw [causeLevelValue_eq_none out]
    rfl
  all_goals
    rw [store_eq_none s.items out]
    rfl

/-! JOIN. -/

/-- R163: outside OFFLINE. -/
theorem exec_join_refusedState (on : s.ixs.state ≠ .offline) : exec .join s = .next (Refused s 4 2 .refusedState) := by
  rw [← refused_eq]
  exact if_neg (by simpa [State.offline] using on)

/-- R163: in OFFLINE, by the items that are written. -/
theorem exec_join_offline (off : s.ixs.state = .offline) : exec .join s =
    if s.items.complete then
      if s.items.membersGood then .next (Responded s.takeJoin 4 2 .done []) else .next (Refused s 4 2 .refusedValue)
    else .next (Refused s 4 2 .refusedIncomplete) := by
  rw [← refused_eq, ← refused_eq, ← responded_eq]
  exact if_pos (by simp [State.offline, off])

/-- R163: one of the four items that JOIN needs is not written. -/
theorem complete_iff (it : Items) : it.complete = true
    ↔ ¬(it.stationNumber = none ∨ it.sectionId = none ∨ it.members = none ∨ it.pitch = none) := by
  simp [Items.complete, Option.isSome_iff_ne_none, and_assoc]

/-- R163: MEMBERS contains the station and no number twice. -/
theorem membersGood_iff {it : Items} {n : Nat} {l : List Nat} (number : it.stationNumber = some n) (members : it.members = some l) :
    it.membersGood = true ↔ n ∈ l ∧ l.Nodup := by
  simp [Items.membersGood, number, members]

/-- Settles O6: the tests of SET_ITEM and of JOIN one after another, each refusal by the test that fails. -/
theorem configurationRefusedInOrder : Obligations.ConfigurationRefusedInOrder := by
  refine fun s => ⟨fun on => ⟨exec_join_refusedState on, exec_setItem_refusedState on⟩, fun off =>
    ⟨fun w => exec_setItem_refusedValue off, fun missing => ?_, fun n sec p l number sect pitch members bad => ?_⟩⟩
  · have incomplete : ¬s.items.complete = true := fun complete => (complete_iff _).1 complete missing
    rw [exec_join_offline off, if_neg incomplete]
  · have complete : s.items.complete = true := (complete_iff _).2 (by simp [number, sect, pitch, members])
    have notGood : ¬s.items.membersGood = true := by
      rw [membersGood_iff number members, not_and_or]
      exact bad
    rw [exec_join_offline off, if_pos complete, if_neg notGood]

/-! JOIN_REPETITION. -/

/-- R167: the JOIN of a station in FORMING carries the forming flag. -/
theorem joinPayload_forming (forming : s.ixs.state = .forming) : s.joinPayload = .join
    { pitch := s.pitch, vmax := s.items.vmax, accel := s.items.accel, stopDecel := s.items.stopDecel
      members := s.memberCount, index := s.ixs.index, forming := true, level := s.har.announcedLevel
      cause := s.har.announcedCause } := by
  rw [State.joinPayload, forming]
  rfl

theorem exec_joinRepetition (forming : s.ixs.state = .forming) (runs : s.ixs.joinTimer ≠ none) : exec .joinRepetition s = .next { s with
    ixs := { s.ixs with joinTimer := some 500000 }, lpt := s.lpt.enqueue s.joinPayload } :=
  if_pos (by simpa [forming, Option.isSome_iff_ne_none] using runs)

/-! FORMING_EXIT. -/

theorem exec_formingExit_idle (h : ¬FormingEnds s) : exec .formingExit s = .next s :=
  if_neg (mt (mayLeaveForming_iff s).1 h)

theorem exec_formingExit (h : FormingEnds s) : exec .formingExit s = .next s.leaveForming.close :=
  if_pos ((mayLeaveForming_iff s).2 h)

/-- R11: no frame that a withdrawal selects stays in the queue. -/
theorem withdraw_queue {l : Lpt} {sel : Payload → Bool} {q : QueuedFrame} (queued : q ∈ (l.withdraw sel).queue) :
    sel q.payload = false := by
  simpa using (List.mem_filter.1 queued).2

/-- R11: the withdrawal of a frame that is being sent is held over its attempt. -/
theorem withdraw_held {l : Lpt} {sel : Payload → Bool} {q : QueuedFrame} (buffer : l.buffer = some q) (selected : sel q.payload = true) :
    (l.withdraw sel).withdrawHeld = true := by
  simp [Lpt.withdraw, buffer, selected]

theorem leaveForming_queue {q : QueuedFrame} (queued : q ∈ s.leaveForming.lpt.queue) : q.payload.kind ≠ .join := by
  simpa [ofKind] using withdraw_queue queued

/-- R148: no self-clearing cause is judged by FORMING, only by OFFLINE. -/
theorem leaveForming_settled (forming : s.ixs.state = .forming) (settled : CausesSettled s) : CausesSettled s.leaveForming :=
  fun c self => by
    have offline : s.leaveForming.offline = s.offline := by
      rw [State.offline, State.offline, forming]
      rfl
    have condition := condition_congr (s := s) (t := s.leaveForming) offline rfl rfl rfl rfl rfl rfl self
    rw [condition]
    exact settled c self

/-- R153: a JOIN that a station queues again once it has left FORMING has its forming flag clear. -/
theorem leaveForming_joins {t : State} (follows : Follows [] s.leaveForming t) {q : QueuedFrame} (queued : q ∈ t.lpt.queue)
    {f : JoinFields} (join : q.payload = .join f) : f.forming = false := by
  rcases follows.joins q queued (by rw [join]; rfl) with old | ⟨g, again, -, flag⟩
  · exact absurd (by rw [join]; rfl) (leaveForming_queue old)
  · cases join.symm.trans again
    exact flag

/-- R171: where the self-clearing causes have settled, the exit does nothing to the Line Port but the withdrawal. -/
theorem leaveForming_close_lpt (forming : s.ixs.state = .forming) (settled : CausesSettled s) :
    s.leaveForming.close.lpt = s.leaveForming.lpt := by
  rw [close_settled _ (leaveForming_settled forming settled)]
  rfl

/-- R11: a JOIN that is being sent at the exit stays in the transmit buffer, its withdrawal held. -/
theorem leaveForming_buffer {t : State} (follows : Follows [] s.leaveForming t) {q : QueuedFrame} (buffer : s.lpt.buffer = some q)
    (join : q.payload.kind = .join) : t.lpt.buffer = some q ∧ t.lpt.withdrawHeld = true := by
  have selected : ofKind .join q.payload = true := by simp [ofKind, join]
  refine ⟨?_, follows.held (withdraw_held buffer selected)⟩
  rw [follows.link]
  exact buffer

/-- Settles O40: the repetition by the JOIN of its instant; at the exit no JOIN stays queued, and only a new pair queues one again. -/
theorem formationEvents : Obligations.FormationEvents := by
  intro s
  refine ⟨fun forming runs => ?_, exec_formingExit_idle, fun ends => ⟨_, exec_formingExit ends, close_leads _, ?_, ?_, ?_⟩⟩
  · rw [← joinPayload_forming forming]
    exact exec_joinRepetition forming runs
  · exact fun _ queued _ => leaveForming_joins (close_follows _) queued
  · intro settled q queued
    rw [leaveForming_close_lpt ends.1 settled] at queued
    exact leaveForming_queue queued
  · exact fun _ => leaveForming_buffer (close_follows _)

end Sys2Proof.SectionFormation
end

section
/-! RESET and the transactions that act on nothing: the discrete outputs, the sampling after a reset, malformed requests and transactions
without a request (R173, R174, R177 to R180). -/

namespace Sys2Proof.CellPort

open Sys2Proof.Machine Sys2Proof.Claims Sys2Proof.StepTime Sys2Proof.SectionFormation

/-! The discrete outputs (R179, Table 11-3). -/

theorem ofAsserted_stands (b : Bool) : AssertedByDriving b (.ofAsserted b) := by
  cases b <;> rfl

theorem ofReleased_stands (b : Bool) :
    if b = true then OutputDrive.ofReleased b = .released else OutputDrive.ofReleased b = .driven := by
  cases b <;> rfl

/-- R179: output by output, SECTION_STOP the last. -/
theorem outputLines_stand (s : State) : Stand s s.outputLines :=
  ⟨ofAsserted_stands _, ofAsserted_stands _, ofAsserted_stands _, ofAsserted_stands _, ofAsserted_stands _, ofAsserted_stands _,
    ofReleased_stands _⟩

/-! RESET (R178, R180). -/

theorem afterReset_samplesAnew (s : State) : SamplesAnew s s.sampling.afterReset := by
  refine ⟨rfl, fun x h => ?_, afterReset_plate _⟩
  rw [lines_eq] at h
  obtain ⟨y, -, rfl⟩ := List.mem_map.1 h
  exact afterReset_line s.sampling y

/-- R180: what is kept beside the blocks does not reach the outputs. -/
theorem resetPart_outputLines (s : State) (cause : ResetCause) : (s.resetPart cause).outputLines = .undriven :=
  resetBy_outputLines cause

theorem exec_reset (cause : ResetCause) (s : State) : exec (.reset cause false) s = .next (s.resetPart cause) := rfl

/-- R180: the part takes a short pulse as the next free value says. -/
theorem exec_reset_short (cause : ResetCause) (s : State) : exec (.reset cause true) s =
    if Config.shortPulseResets s.freeTaken then .next (State.resetPart { s with freeTaken := s.freeTaken + 1 } cause)
    else .next { s with freeTaken := s.freeTaken + 1 } := rfl

/-- Settles O4: a pulse of full length resets the part; a short one by both answers that its free value can give. -/
theorem resetTakesEveryBlock : Obligations.ResetTakesEveryBlock := by
  refine fun cause s => ⟨outputLines_stand s, s.sampling.afterReset, afterReset_samplesAnew s,
    ⟨exec_reset cause s, resetPart_outputLines s cause⟩, ?short⟩
  case short =>
    rw [exec_reset_short]
    split
    · exact ⟨_, rfl, .inl rfl⟩
    · exact ⟨_, rfl, .inr rfl⟩

/-! What a transaction shifts out (R174, R177). -/

theorem bufferOctets_eq (b : Option Response) : bufferOctets b = BufferGives b := by
  cases b <;> rfl

theorem shiftOut_length (b : Option Response) (n : Nat) : (shiftOut b n).length = n := by
  simp [shiftOut]

/-- R174: octet by octet, and all ones after the last. -/
theorem shiftOut_getElem? (b : Option Response) {n i : Nat} (clocked : i < n) :
    (shiftOut b n)[i]? = some ((BufferGives b).getD i 255#8) := by
  rw [shiftOut, bufferOctets_eq, List.getElem?_take_of_lt clocked, List.getD_eq_getElem?_getD]
  by_cases inside : i < (BufferGives b).length
  · rw [List.getElem?_append_left inside, List.getElem?_eq_getElem inside, Option.getD_some]
  · have past : (BufferGives b).length ≤ i := Nat.le_of_not_lt inside
    rw [List.getElem?_append_right past, List.getElem?_replicate_of_lt (by omega), List.getElem?_eq_none past, Option.getD_none]

/-- R177: three octets, the fields and the check. -/
theorem response_octets_length (r : Response) : r.octets.length = 5 + r.fields.length := by
  have check (os : List Byte) : (checkOctets os).length = 2 := octets_length 2 _
  simp only [Response.octets, List.length_append, List.length_cons, List.length_nil, check]
  omega

/-- R174: a transaction has read a response that it shifts out in full. -/
theorem transact_responseRead (c : Cpt) (n : Nat) : (c.transact n).responseRead = true
    ↔ c.responseRead = true ∨ ∃ r, c.response = some r ∧ 5 + r.fields.length ≤ n := by
  unfold Cpt.transact
  cases e : c.response with
  | none => simp
  | some r => simp [bufferOctets, response_octets_length]

/-! The two transactions that act on nothing. -/

/-- R173. -/
theorem exec_malformedRequest (s : State) (kind : Byte) :
    exec (.malformedRequest kind) s = .next (Refused s 1 kind .refusedValue) :=
  congrArg Host.Outcome.next (refused_eq s 1 kind .refusedValue)

theorem exec_noneTransaction (s : State) (n : Nat) :
    exec (.noneTransaction n) s = .next { s with cpt := s.cpt.transact n } := rfl

theorem cpt_onlyIn (s : State) (c : Cpt) : OnlyIn [.cpt] s { s with cpt := c } := by
  refine ⟨fun b other => ?_, rfl, rfl⟩
  cases b
  case cpt => exact absurd (List.mem_singleton_self _) other
  all_goals rfl

/-- Settles O11: the transaction changes the Cell Port alone, and in it what was shifted out and the mark of the response. -/
theorem transactionsWithoutRequest : Obligations.TransactionsWithoutRequest := fun s =>
  ⟨exec_malformedRequest s, fun n => ⟨_, exec_noneTransaction s n, cpt_onlyIn s _, rfl, rfl, shiftOut_length _ n,
    fun _ clocked => shiftOut_getElem? _ clocked, transact_responseRead s.cpt n⟩⟩

end Sys2Proof.CellPort
end

section
/-! A step with a command waiting. -/

namespace Sys2Proof.StepTime

open Sys2Proof.Machine

/-- Settles O1, the counterpart of `step_idle`: the match of `step` on the queue takes its first branch, whatever the command. -/
theorem stepRunsFrontCommand : Obligations.StepRunsFrontCommand := by
  intro c rest s front
  rw [step, front]

end Sys2Proof.StepTime
end

section
/-! The laws of the fixture record, the members' records, the image and the fixture (R35, R111, R120, R137, R142, Table 6-2), kept by every
operation and every command. -/

set_option Elab.async false

namespace Sys2Proof.RecordLaws

open Sys2Proof.Machine Sys2Proof.Safety

/-! The fixture (Table 6-2, R111). -/

/-- Table 6-2, R111: `FixtureOutputs` of the fixture alone. -/
def FixtureLaw (f : Fxs) : Prop :=
  f.marks ≤ 7 ∧
    match f.state with
    | .open => f.release = true ∧ f.withdraw = true ∧ f.openingStep = .none ∧ f.marks = 0
    | .opening => f.release = true ∧ f.marks = 0 ∧
        ((f.openingStep = .one ∧ f.withdraw = false) ∨ (f.openingStep = .two ∧ f.withdraw = true))
    | .locating => f.withdraw = false ∧ f.openingStep = .none ∧ f.marks = 0
    | .clamping => f.release = false ∧ f.withdraw = false ∧ f.openingStep = .none
    | .secured => f.release = false ∧ f.withdraw = false ∧ f.openingStep = .none

theorem fixtureOutputs_iff (s : State) : FixtureOutputs s ↔ FixtureLaw s.fxs := Iff.rfl

section fixture

variable {f : Fxs}

theorem FixtureLaw.withTimers (h : FixtureLaw f) (a b : Option Nat) : FixtureLaw { f with stepTimer := a, clampTimer := b } := h

theorem fixtureLaw_openStep2 (release : f.release = true) (marks : f.marks = 0) (state : f.state = .opening) (i : Inputs) (n : Nat) :
    FixtureLaw (f.openStep2 i n) := by
  unfold Fxs.openStep2 Fxs.checkOpen
  split <;> simp [FixtureLaw, release, marks, state]

theorem fixtureLaw_openStep1 (withdraw : f.withdraw = false) (i : Inputs) (n : Nat) : FixtureLaw (f.openStep1 i n) := by
  unfold Fxs.openStep1
  dsimp only
  split
  · simp [FixtureLaw, withdraw]
  · exact fixtureLaw_openStep2 rfl rfl rfl i n

theorem FixtureLaw.commandOpen (h : FixtureLaw f) (i : Inputs) (n : Nat) : FixtureLaw (f.commandOpen i n) := by
  obtain ⟨-, outputs⟩ := id h
  unfold Fxs.commandOpen
  split <;> rename_i state <;> rw [state] at outputs
  · exact h
  · exact h
  · exact fixtureLaw_openStep1 outputs.1 i n
  · exact fixtureLaw_openStep1 outputs.2.1 i n
  · exact fixtureLaw_openStep1 outputs.2.1 i n

theorem fixtureLaw_beginClamping (withdraw : f.withdraw = false) (step : f.openingStep = .none) (marks : f.marks ≤ 7)
    (n : Option Nat) : FixtureLaw (f.beginClamping n) := ⟨marks, rfl, withdraw, step⟩

theorem fixtureLaw_beginLocating (marks : f.marks = 0) (i : Inputs) (n m : Nat) : FixtureLaw (f.beginLocating i n m) := by
  unfold Fxs.beginLocating
  dsimp only
  split
  · exact fixtureLaw_beginClamping rfl rfl (marks ▸ Nat.zero_le 7) _
  · simp [FixtureLaw, marks]

theorem FixtureLaw.commandSeat (h : FixtureLaw f) (i : Inputs) (n m : Nat) : FixtureLaw (f.commandSeat i n m) := by
  obtain ⟨-, outputs⟩ := id h
  unfold Fxs.commandSeat
  split <;> rename_i state <;> rw [state] at outputs
  · exact fixtureLaw_beginLocating outputs.2.2.2 i n m
  · exact fixtureLaw_beginLocating outputs.2.1 i n m
  · exact h
  · exact h
  · exact h

/-- R106, R113: the pressure taken as off ends opening step 1, or takes a SECURED fixture back to CLAMPING, the marks cleared. -/
theorem FixtureLaw.pressureOff (h : FixtureLaw f) (i : Inputs) (n : Nat) : FixtureLaw (f.pressureOff i n) := by
  obtain ⟨-, outputs⟩ := id h
  unfold Fxs.pressureOff
  split
  · rename_i state _
    rw [state] at outputs
    exact fixtureLaw_openStep2 outputs.1 outputs.2.1 state i n
  · rename_i state
    simp only [state] at outputs
    simpa [FixtureLaw, Fxs.clearMarks, state] using outputs
  · rename_i state
    simp only [state] at outputs
    simpa [FixtureLaw, Fxs.clearMarks] using outputs
  · exact h

/-- R107: opening step 2 ends in OPEN. -/
theorem FixtureLaw.checkOpen (h : FixtureLaw f) (state : f.state = .opening) (step : f.openingStep = .two) (i : Inputs) :
    FixtureLaw (f.checkOpen i) := by
  obtain ⟨marks, outputs⟩ := id h
  unfold Fxs.checkOpen
  split
  · simp only [state, step] at outputs
    exact ⟨marks, by simpa [and_comm, and_assoc] using outputs⟩
  · exact h

/-- R110, R111: an eighth mark is never set, and a mark is set in CLAMPING or SECURED only. -/
theorem FixtureLaw.setMark (h : FixtureLaw f) (state : f.state = .clamping ∨ f.state = .secured) (marks : f.marks < 7) (n : Nat) :
    FixtureLaw (f.setMark n) := by
  obtain ⟨-, outputs⟩ := h
  unfold Fxs.setMark
  dsimp only
  rcases state with state | state <;> rw [state] at outputs <;> split <;>
    exact ⟨marks, by simpa [state] using outputs⟩

theorem FixtureLaw.settleOn (h : FixtureLaw f) (i : Inputs) : FixtureLaw (f.settleOn i) := by
  unfold Fxs.settleOn
  split
  · exact h
  · exact h

end fixture

/-! The image (R142, R143). -/

/-- R142: two slots do not hold the same pallet id. -/
def Apart (x y : Slot) : Prop := ∀ i : Nat, slotId x = some i → slotId y ≠ some i

/-- R142: no pallet id stands in two slots of an image. -/
def Distinct (im : Sim) : Prop := (im.slots ++ [im.exitSlot]).Pairwise Apart

theorem imageDistinct_iff (s : State) : ImageDistinct s ↔ Distinct s.sim := by
  unfold ImageDistinct Distinct List.Nodup
  rw [List.pairwise_filterMap]
  exact List.Pairwise.iff fun x y => ⟨fun h i a b => h i a i b rfl, fun h i a j b e => by subst e; exact h i a b⟩

theorem apart_dropId (id : Nat) {x y : Slot} (h : Apart x y) : Apart (dropId id x) (dropId id y) := by
  have kept {x : Slot} {i : Nat} (e : slotId (dropId id x) = some i) : slotId x = some i := by
    unfold dropId at e
    split at e
    · split at e
      · cases e
      · exact e
    · exact e
  exact fun i a b => h i (kept a) (kept b)

/-- R142: a slot that has given up an id does not hold it. -/
theorem slotId_dropId (id : Nat) (x : Slot) : slotId (dropId id x) ≠ some id := by
  unfold dropId
  split
  · split <;> simp [slotId, *]
  · rename_i other
    cases x <;> simp_all [slotId]

/-- A slot apart from every other may be written anywhere. -/
theorem pairwise_write {c : Slot} {l : List Slot} {e : Slot} (h : (l ++ [e]).Pairwise Apart)
    (free : ∀ x ∈ l ++ [e], Apart c x ∧ Apart x c) (m : Nat) : (updateAt (fun _ => c) m l ++ [e]).Pairwise Apart := by
  induction l generalizing m with
  | nil => simp [updateAt]
  | cons a l ih =>
    obtain ⟨first, rest⟩ := List.pairwise_cons.1 h
    have later : ∀ x ∈ l ++ [e], Apart c x ∧ Apart x c := fun x i => free x (List.mem_cons_of_mem a i)
    cases m with
    | zero => exact List.pairwise_cons.2 ⟨fun x i => (later x i).1, rest⟩
    | succ m =>
      refine List.pairwise_cons.2 ⟨fun x i => ?_, ih rest later m⟩
      rcases List.mem_append.1 i with i | i
      · obtain ⟨j, p, at_j, written | kept⟩ := SectionLine.mem_updateAt i
        · rw [written.2]
          exact (free a List.mem_cons_self).2
        · rw [kept.2]
          exact first p (List.mem_append_left _ (List.mem_of_getElem? at_j))
      · exact first x (List.mem_append_right _ i)

/-- R140, R142: a READY written into its slot, its id given up elsewhere. -/
theorem Distinct.write {im : Sim} (h : Distinct im) (m : Nat) (content : Slot) : Distinct (im.write m content) := by
  unfold Sim.write
  split
  · rename_i id v w
    have given : ((im.slots.map (dropId id)) ++ [dropId id im.exitSlot]).Pairwise Apart := by
      have mapped := List.Pairwise.map (dropId id) (fun _ _ => apart_dropId id) h
      rwa [List.map_append] at mapped
    refine pairwise_write given (fun x i => ?_) m
    have gone : slotId x ≠ some id := by
      rw [← List.map_singleton (f := dropId id), ← List.map_append] at i
      obtain ⟨y, -, rfl⟩ := List.mem_map.1 i
      exact slotId_dropId id y
    exact ⟨fun i a b => gone (b.trans a.symm), fun i a b => gone (a.trans b.symm)⟩
  · rename_i other
    have none : slotId content = none := by
      cases content with
      | pallet i v w => exact absurd rfl (other i v w)
      | _ => rfl
    refine pairwise_write h (fun x _ => ⟨fun i a => ?_, fun i _ b => ?_⟩) m
    · rw [none] at a
      cases a
    · rw [none] at b
      cases b

/-- R143: every content moves one place downstream; the old exit slot is lost. -/
theorem Distinct.shift {im : Sim} (h : Distinct im) : Distinct im.shift := by
  unfold Distinct Sim.shift
  rcases List.eq_nil_or_concat im.slots with e | ⟨l, x, e⟩
  · simp [e]
  · have moved : (Slot.empty :: im.slots).take im.slots.length ++ [im.slots.getLastD im.exitSlot] = Slot.empty :: im.slots := by
      simp [e]
    dsimp only
    rw [moved]
    exact List.pairwise_cons.2 ⟨fun _ _ _ a => by simp [slotId] at a, (List.pairwise_append.1 h).1⟩

@[simp] theorem write_length (im : Sim) (m : Nat) (content : Slot) : (im.write m content).slots.length = im.slots.length := by
  unfold Sim.write
  split <;> simp

@[simp] theorem shift_length (im : Sim) : im.shift.slots.length = im.slots.length := by simp [Sim.shift]

end Sys2Proof.RecordLaws
end

section
/-! Every step keeps the fixture record with HELD, one record and one slot for each member, the image without an id twice, and the fixture's
outputs (R35, R111, R120, R137, R142, Table 6-2). -/

set_option Elab.async false

namespace Sys2Proof.RecordLaws

open Sys2Proof.Machine Sys2Proof.Safety

/-- R35, R111, R120, R137, R142, Table 6-2: the laws that every operation keeps. -/
structure Recorded (s : State) : Prop where
  record : RecordWithHeld s
  each : OneRecordEach s
  image : Distinct s.sim
  fixture : FixtureLaw s.fxs

variable {s t : State}

/-! Updates that the laws do not read. -/

/-- An update that leaves the status and the record, the number of members, of their records and of their slots, the image and the fixture.
The sequencer leaves OFFLINE only where the lengths are right. -/
theorem Recorded.of_rest (h : Recorded s) (hi : t.ixs.state ≠ .offline → s.ixs.state ≠ .offline := by exact id)
    (hr : t.rst.status = s.rst.status := by rfl) (hc : t.rst.record = s.rst.record := by rfl) (hs : t.sim = s.sim := by rfl)
    (hp : t.peers.length = s.peers.length := by rfl) (hm : t.items.members = s.items.members := by rfl)
    (hf : t.fxs = s.fxs := by rfl) : Recorded t where
  record := by unfold RecordWithHeld; rw [hc, hr]; exact h.record
  each on := by
    unfold State.memberCount State.memberList
    rw [hp, hs, hm]
    exact h.each (hi on)
  image := hs ▸ h.image
  fixture := hf ▸ h.fixture

theorem Recorded.of_frame (h : Recorded s) (f : HoldFrame s t) : Recorded t := by
  refine h.of_rest (fun on => ?_) (by rw [f.rst]) (by rw [f.rst]) f.sim (by rw [f.peers]) (by rw [f.items]) f.fxs
  rcases f.ixs with e | ⟨e, -⟩
  · rwa [e] at on
  · rw [e]
    exact nofun

theorem Recorded.ite {b : Prop} [Decidable b] (h : b → Recorded s) (k : Recorded t) : Recorded (if b then s else t) := by
  split
  · exact h ‹b›
  · exact k

theorem Recorded.withFixture (h : Recorded s) {f : Fxs} (law : FixtureLaw f) (i : Inputs) : Recorded { s with fxs := f, inputs := i } :=
  ⟨h.record, h.each, h.image, law⟩

theorem Recorded.withImage (h : Recorded s) {im : Sim} (law : Distinct im) (n : im.slots.length = s.sim.slots.length) :
    Recorded { s with sim := im } where
  record := h.record
  each on := ⟨(h.each on).1, n.trans (h.each on).2⟩
  image := law
  fixture := h.fixture

theorem Recorded.raise (h : Recorded s) (c : Cause) : Recorded (s.raise c) := h.of_frame (raise_frame s c)

theorem Recorded.close (h : Recorded s) : Recorded s.close := h.of_frame (close_frame s)

theorem Recorded.updatePeer (h : Recorded s) (i : Nat) (f : Peer → Peer) : Recorded (s.updatePeer i f) :=
  h.of_rest (hp := updateAt_length f i s.peers)

theorem Recorded.updatePeers (h : Recorded s) (f : Peer → Peer) : Recorded (s.updatePeers f) :=
  h.of_rest (hp := List.length_map f)

theorem Recorded.enter (h : Recorded s) (on : s.ixs.state ≠ .offline) (st : SeqState) : Recorded (s.enter st) :=
  h.of_rest fun _ => on

theorem Recorded.moveShuttle (h : Recorded s) (st : ShuttleState) : Recorded (s.moveShuttle st) := by
  rcases moveShuttle_cases s st with ⟨-, e⟩ | ⟨-, e⟩ <;> rw [e] <;> exact h.of_rest

@[simp] theorem moveShuttle_ixs (s : State) (st : ShuttleState) : (s.moveShuttle st).ixs = s.ixs := by
  rcases moveShuttle_cases s st with ⟨-, e⟩ | ⟨-, e⟩ <;> rw [e]

/-- R120: a record stands with HELD, and with no other status. -/
theorem Recorded.setFixture (h : Recorded s) {x : FixtureStatus} {r : Option PalletRecord} (law : r.isSome = true ↔ x = .held) :
    Recorded (s.setFixture x r) := ⟨law, h.each, h.image, h.fixture⟩

/-! The Fixture Sequencer and the records. -/

theorem Recorded.liftReported (h : Recorded s) : Recorded s.liftReported :=
  .ite (fun e => h.of_rest fun _ => by rw [e.1]; exact nofun) h

theorem Recorded.enterWorking (h : Recorded s) (on : s.ixs.state ≠ .offline) : Recorded s.enterWorking := h.of_rest fun _ => on

theorem Recorded.fixtureReported (h : Recorded s) : Recorded s.fixtureReported := by
  unfold State.fixtureReported
  split
  · exact .ite (fun _ => Recorded.liftReported h.of_rest) h
  · rename_i state _
    exact .ite (fun _ => h.enterWorking (by rw [state]; exact nofun)) h
  · rename_i state _
    exact .ite (fun _ => h.enterWorking (by rw [state]; exact nofun)) h
  · exact h

theorem Recorded.openFixture (h : Recorded s) : Recorded s.openFixture :=
  (h.withFixture (h.fixture.commandOpen _ _) s.inputs).fixtureReported

theorem Recorded.seatFixture (h : Recorded s) : Recorded s.seatFixture :=
  (h.withFixture (h.fixture.commandSeat _ _ _) s.inputs).fixtureReported

/-- Table 7-5: a record comes with HELD only. -/
theorem seatingRow_record (slot : Option (Option PalletRecord)) (present : Bool) (plate : Nat) :
    (seatingRow slot present plate).2.1.isSome = true ↔ (seatingRow slot present plate).1 = .held := by
  unfold seatingRow
  split
  · split <;> simp
  all_goals simp

theorem Recorded.decideSeating (h : Recorded s) : Recorded s.decideSeating := by
  have g : Recorded ({ s with ixs := { s.ixs with upstreamTimer := none } }.goStep .seat) := h.of_rest
  have decided := g.setFixture (seatingRow_record (s.rst.slotFor s.indexMade) s.inputs.palletPresent s.inputs.plate.toNat)
  have raised {u : State} (k : Recorded u) (c : Option Cause) : Recorded (u.raiseOpt c) := by
    cases c with
    | none => exact k
    | some c => exact k.raise c
  exact .ite (fun _ => (raised decided _).openFixture) (raised decided _).seatFixture

/-- R54, R123: the record that moves outward leaves the status EMPTY. -/
theorem Recorded.moveRecord (h : Recorded s) : Recorded s.moveRecord := by
  unfold State.moveRecord
  refine Recorded.openFixture (Recorded.setFixture ?_ (by simp))
  dsimp only
  split
  · exact h.of_rest
  · exact h.of_rest

theorem Recorded.updateImage (h : Recorded s) (m : Nat) (f : ReadyFields) : Recorded (s.updateImage m f) := by
  have written : Recorded { s with sim := s.sim.write m (slotOf f) } := h.withImage (h.image.write m _) (by simp)
  exact .ite (fun _ => written.raise _) written

/-! The Index Sequencer. -/

theorem Recorded.enterReleasing (h : Recorded s) (on : s.ixs.state ≠ .offline) : Recorded s.enterReleasing := by
  unfold State.enterReleasing
  have stop {u : State} (k : Recorded u) :
      Recorded (if 6 ≤ u.har.announcedLevel then u.queueStop u.har.announcedCause else u) := .ite (fun _ => k.of_rest) k
  have raised {u : State} (k : Recorded u) : Recorded (if u.inputs.machClear then u else u.raise .machIntrusion) :=
    .ite (fun _ => k) (k.raise _)
  have releasing := (h.updatePeers fun p => { p with lastLowered := none }).enter on .releasing
  exact (raised (stop releasing.of_rest)).openFixture

theorem Recorded.checkReadyBarrier (h : Recorded s) : Recorded s.checkReadyBarrier :=
  .ite (fun ⟨state, _⟩ => h.enterReleasing (by rcases state with e | e <;> rw [e] <;> exact nofun)) h

theorem Recorded.abandonSeat (h : Recorded s) : Recorded s.abandonSeat := by
  have g : Recorded ({ s with ixs := { s.ixs with loweringTimer := none } }.goStep .abandonSeat) := h.of_rest
  exact .ite (fun _ => g.fixtureReported) g.seatFixture

theorem Recorded.abandon (h : Recorded s) (on : s.ixs.state ≠ .offline) : Recorded s.abandon := by
  have g := ((h.updatePeers fun p => { p with ready := false }).updatePeers fun p => { p with lifted := false }).enter on .abandoning
  unfold State.abandon
  exact .ite (fun _ => Recorded.abandonSeat g.of_rest) g.of_rest

theorem Recorded.startMotion (h : Recorded s) (on : s.ixs.state ≠ .offline) (p : Pgn) (x : LineTime) :
    Recorded (s.startMotion p x) := by
  have g : Recorded { s with
      pgn := p
      ssv := { s.ssv.endHoming with repositionTarget := none, repositionUse := none }
      ixs := { s.ixs with origin := some x, resumeStep := .none } } := h.of_rest
  have m := (g.moveShuttle .forward).enter (by rw [moveShuttle_ixs]; exact on) .moving
  exact .ite (fun _ => m.of_rest) m

theorem Recorded.checkLiftedBarrier (h : Recorded s) (x : LineTime) : Recorded (s.checkLiftedBarrier x) := by
  have g (l : Lpt) : Recorded { s with ixs := { s.ixs with liftBarrierTimer := none }, lpt := l } := h.of_rest
  exact .ite (fun ⟨e, _⟩ => (g _).startMotion (by rw [e]; exact nofun) _ _) h

theorem Recorded.checkResumeBarrier (h : Recorded s) (x : LineTime) : Recorded (s.checkResumeBarrier x) :=
  .ite (fun ⟨e, _⟩ => h.startMotion (by rw [e]; exact nofun) _ _) h

theorem Recorded.stopMotion (h : Recorded s) (on : s.ixs.state ≠ .offline) (x : LineTime) : Recorded (s.stopMotion x) := by
  have g (p : Pgn) : Recorded { s with ixs := { s.ixs with stopStamp := some x }, pgn := p } := h.of_rest
  unfold State.stopMotion
  dsimp only
  split
  · exact ((g _).moveShuttle .stopping).enter (by simpa using on) _
  · exact g s.pgn

theorem Recorded.stopResume (h : Recorded s) (on : s.ixs.state ≠ .offline) : Recorded s.stopResume :=
  (h.updatePeers fun p => { p with resume := false }).of_rest fun _ => on

theorem Recorded.takeStop (h : Recorded s) (x : LineTime) : Recorded (s.takeStop x) := by
  have g : Recorded (s.withdraw (isStopOf s.ixs.index)) := h.of_rest
  unfold State.takeStop
  dsimp only
  split <;> rename_i state
  · exact g.abandon fun off => by cases state.symm.trans off
  · exact g.abandon fun off => by cases state.symm.trans off
  · exact g.stopMotion (fun off => by cases state.symm.trans off) x
  · exact g.stopResume fun off => by cases state.symm.trans off
  · exact g.stopResume fun off => by cases state.symm.trans off
  · exact g

theorem Recorded.rampEnded (h : Recorded s) : Recorded s.rampEnded :=
  .ite (fun e => (h.moveShuttle .haltedMid).enter (by rw [e]; exact nofun) _) (h.moveShuttle .haltedMid)

theorem Recorded.enterLowering (h : Recorded s) (on : s.ixs.state ≠ .offline) : Recorded s.enterLowering := by
  have g : Recorded (({ s with ixs := { s.ixs with loweringTimer := some Config.inPositionTime, sinceCompletion := 0 } }.goStep
      .inPosition).enter .lowering) := h.of_rest fun _ => on
  exact .ite (fun _ => g) (g.of_frame (restart_frame _))

/-- R143: the image of the members moves one place downstream with the index. -/
theorem Recorded.shifted (h : Recorded s) {x : Ixs} (e : x.state = s.ixs.state) :
    Recorded { s with ixs := x, sim := s.sim.shift } := by
  have moved : Recorded { s with sim := s.sim.shift } := h.withImage h.image.shift (by simp)
  exact moved.of_rest (t := { s with ixs := x, sim := s.sim.shift }) (by rw [e]; exact id)

theorem Recorded.clearMarks (h : Recorded s) : Recorded s.clearReady.clearLifted.clearResume :=
  ((h.updatePeers _).updatePeers _).updatePeers _

theorem Recorded.commonCompleted (h : Recorded s) : Recorded s.commonCompleted := by
  unfold State.commonCompleted
  dsimp only
  split
  · rename_i moving
    have moved := ((h.moveShuttle .atEnd).shifted (x := { (s.moveShuttle .atEnd).ixs with
      index := (s.moveShuttle .atEnd).ixs.index + 1, origin := none, stopStamp := none }) rfl).clearMarks
    exact moved.enterLowering fun off => by cases moving.symm.trans off
  · exact h.moveShuttle .atEnd

theorem Recorded.enterSeating (h : Recorded s) (on : s.ixs.state ≠ .offline) : Recorded s.enterSeating := by
  have g : Recorded ((s.goStep .upstream).enter .seating) := h.of_rest fun _ => on
  refine .ite (fun _ => Recorded.enterWorking g.of_rest nofun) (.ite (fun _ => g.decideSeating) ?_)
  exact .ite (fun _ => Recorded.raise g.of_rest _) g.of_rest

theorem Recorded.commandReturn (h : Recorded s) : Recorded s.commandReturn :=
  .ite (fun _ => h.moveShuttle _) (h.moveShuttle .returning).of_rest

theorem Recorded.tryLowered (h : Recorded s) : Recorded s.tryLowered := by
  have g : Recorded (s.queueFrame (.lowered s.indexMade)) := h.of_rest
  refine .ite (fun e => g.commandReturn.enterSeating ?_) h
  have kept : (s.queueFrame (.lowered s.indexMade)).commandReturn.ixs = s.ixs := by
    rw [SectionLine.commandReturn_eq]
    rfl
  rw [kept, e.1]
  exact nofun

theorem Recorded.liftDownReported (h : Recorded s) : Recorded s.liftDownReported := by
  unfold State.liftDownReported
  split
  · exact h.abandonSeat
  · exact Recorded.tryLowered h.of_rest
  · exact h.tryLowered

theorem Recorded.lowerPallet (h : Recorded s) : Recorded s.lowerPallet :=
  .ite (fun _ => Recorded.liftDownReported h.of_rest) h.of_rest

theorem Recorded.endUpstreamWait (h : Recorded s) (m : Nat) : Recorded (s.endUpstreamWait m) := .ite (fun _ => h.decideSeating) h

/-- R6: what is queued again for a removed frame changes the Line Port alone, and a lost HANDOVER the outgoing record. -/
theorem Recorded.frameRemoved (h : Recorded s) (p : Payload) : Recorded (s.frameRemoved p) := by
  unfold State.frameRemoved
  have queued (q : Payload) : Recorded (s.queueFrame q) := h.of_rest
  split
  · exact .ite (fun _ => queued _) h
  · exact .ite (fun _ => queued _) h
  · exact .ite (fun _ => queued _) h
  · exact .ite (fun _ => queued _) h
  · exact .ite (fun _ => queued _) h
  · exact queued _
  · split
    · exact .ite (fun _ => Recorded.tryLowered h.of_rest) h
    · exact h
  · exact h
  · exact h
  · exact h

/-! The Shuttle Supervisor. -/

theorem Recorded.reportWord (h : Recorded s) : Recorded s.reportWord := by
  have offered {u : State} (k : Recorded u) : Recorded (if u.ixs.state = .resumeWait ∧ u.ixs.resumeStep = .awaitWord
      ∧ u.ssv.drive ∧ u.atStopSetpoint then u.offerResume else u) := .ite (fun _ => k.of_rest) k
  have passed {u : State} (k : Recorded u) : Recorded (if u.ssv.homeCheck ∧ u.inputs.home ∧ u.inPosition
      then u.passHomeCheck else u) := .ite (fun _ => Recorded.moveShuttle k.of_rest _) k
  exact passed (offered (.ite (fun _ => h.lowerPallet) h))

theorem Recorded.sendWord (h : Recorded s) : Recorded s.sendWord := .ite (fun _ => Recorded.raise h.of_rest _) h.of_rest

theorem Recorded.startWord (h : Recorded s) : Recorded s.startWord := h.sendWord.reportWord

theorem Recorded.failHoming (h : Recorded s) : Recorded s.failHoming := Recorded.moveShuttle h.of_rest _

theorem Recorded.homingRunEnded (h : Recorded s) : Recorded s.homingRunEnded := by
  unfold State.homingRunEnded
  split
  · exact h.of_rest
  · exact h.failHoming
  · exact h

theorem Recorded.repositionCompleted (h : Recorded s) : Recorded s.repositionCompleted := by
  unfold State.repositionCompleted
  have g : Recorded { s with ssv := { s.ssv with repositionTarget := none, repositionUse := none } } := h.of_rest
  dsimp only
  split
  · exact g.moveShuttle _
  · exact .ite (fun _ => (g.moveShuttle _).of_rest) (g.moveShuttle _)
  · exact g.failHoming
  · exact g.of_rest
  · exact g.of_rest
  · exact .ite (fun _ => g.failHoming.raise _) g.of_rest
  · exact g

theorem Recorded.localCompleted (h : Recorded s) : Recorded s.localCompleted := by
  unfold State.localCompleted
  split
  · exact h.of_rest
  · exact h.repositionCompleted
  · exact h

theorem Recorded.periodOutcome (h : Recorded s) (o : PeriodOutcome) : Recorded (s.periodOutcome o) := by
  cases o with
  | goesOn => exact h
  | completed => exact .ite (fun _ => h.commonCompleted) h.localCompleted
  | rampEnded => exact .ite (fun _ => h.homingRunEnded) h.rampEnded

theorem Recorded.endPeriod (h : Recorded s) : Recorded s.endPeriod := by
  have word {u : State} (k : Recorded u) : Recorded u.wordAtPeriod := .ite (fun _ => k.sendWord) k.of_rest
  have report {u : State} (k : Recorded u) : Recorded u.reportPosition := .ite (fun _ => k.of_rest) k
  have outcome {u : State} (k : Recorded u) (o : PeriodOutcome) : Recorded (u.outcomeAfterWord o) :=
    .ite (fun _ => k) (k.periodOutcome o)
  have ended {p : Pgn} (o : PeriodOutcome) :
      Recorded (({ s with pgn := p } : State).wordAtPeriod.reportPosition.outcomeAfterWord o) :=
    outcome (report (word h.of_rest)) o
  exact .ite (fun _ => .ite (fun _ => (ended _).reportWord) (ended _)) h

theorem Recorded.reachOrigin (h : Recorded s) : Recorded s.reachOrigin := by
  have moved {u : State} (k : Recorded u) : Recorded (if u.pgn.kind = .forward then u.moveRecord else u) :=
    .ite (fun _ => k.moveRecord) k
  have completed {u : State} (k : Recorded u) : Recorded (if u.pgn.phase = .running ∧ u.pgn.periods = 0
      then { u with pgn := u.pgn.complete }.commonCompleted else u) := .ite (fun _ => Recorded.commonCompleted k.of_rest) k
  exact .ite (fun _ => completed (moved h.of_rest)) h

theorem Recorded.startLocal (h : Recorded s) : Recorded s.startLocal :=
  .ite (fun _ => .ite (fun _ => Recorded.localCompleted h.of_rest) h.of_rest) h

theorem Recorded.giveUpHoming (h : Recorded s) : Recorded s.giveUpHoming := by
  unfold State.giveUpHoming
  split
  · exact h.of_rest
  · exact h.of_rest
  · exact h.of_rest
  · exact h.of_rest
  · exact h.failHoming
  · exact h

theorem Recorded.startHoming (h : Recorded s) : Recorded s.startHoming := .ite (fun _ => h.of_rest) h.of_rest

theorem Recorded.resumeOffer (h : Recorded s) : Recorded s.resumeOffer := by
  have g : Recorded { s with ixs := { s.ixs with resumeStep := .repositioning } } := h.of_rest
  exact .ite (fun _ => h.of_rest) (g.moveShuttle .repositioning).of_rest

/-! The discrete inputs. -/

theorem Recorded.losePressure (h : Recorded s) : Recorded s.losePressure := by
  have lost {u : State} (k : Recorded u) : Recorded (if s.fxs.state = .secured ∧ s.ixs.state.losesPressure
      then u.raise .clampPressureLost else u) := .ite (fun _ => k.raise _) k
  have g := lost (h.withFixture (h.fixture.pressureOff { s.inputs with pressure := false }
    (Config.timeout s.items.releaseStepTimeout)) { s.inputs with pressure := false })
  exact .ite (fun _ => g.fixtureReported) g

theorem Recorded.checkLocated (h : Recorded s) : Recorded s.checkLocated := by
  refine .ite (fun ⟨state, _⟩ => h.withFixture ?_ s.inputs) h
  obtain ⟨marks, outputs⟩ := h.fixture
  rw [state] at outputs
  exact fixtureLaw_beginClamping outputs.1 outputs.2.1 marks _

theorem Recorded.loseLocators (h : Recorded s) (a b : Bool) : Recorded (s.loseLocators a b) := by
  have g : Recorded { s with inputs := { s.inputs with locator1 := a, locator2 := b } } := h.of_rest
  refine .ite (fun _ => g.raise _) (.ite (fun ⟨state, step, _⟩ => ?_) g)
  exact (g.withFixture (g.fixture.checkOpen state step _) _).fixtureReported

theorem Recorded.setSettleMark (h : Recorded s) (may : s.mayMark = true) : Recorded s.setSettleMark := by
  obtain ⟨state, -, marks⟩ := (FixtureRelease.mayMark_iff s).1 may
  have g := h.withFixture (h.fixture.setMark state marks s.items.settleStage) s.inputs
  exact .ite (fun _ => g.fixtureReported) g

/-! The frames of members. -/

theorem Recorded.deliverJoin (h : Recorded s) (d : Delivery) (f : JoinFields) : Recorded (s.deliverJoin d f) := by
  have cleared {u : State} (k : Recorded u) : Recorded u.clearAtForming := by
    have marks : Recorded (if u.ixs.state.clearsReady then u.clearReady else u) := .ite (fun _ => k.updatePeers _) k
    exact .ite (fun _ => marks.of_rest) marks
  have answered {u : State} (k : Recorded u) : Recorded u.answerJoin := .ite (fun _ => k) k.of_rest
  have adopted {u : State} (k : Recorded u) : Recorded (u.adoptIndex f.index) := by
    have marks : Recorded (if f.index = u.ixs.index then u else u.clearReady) := .ite (fun _ => k) (k.updatePeers _)
    exact .ite (fun _ => marks.of_rest) k
  have g : Recorded (s.writeJoin d.member f) := h.updatePeer _ _
  exact .ite (fun _ => (answered (cleared g)).endUpstreamWait _) (adopted g)

theorem Recorded.deliverResume (h : Recorded s) (d : Delivery) (x : LineTime) (i : IndexNo) (sp : Nat) :
    Recorded (s.deliverResume d x i sp) := by
  have g := h.updatePeer d.member fun p => { p with resume := true }
  have tested : Recorded (if (s.updatePeer d.member fun p => { p with resume := true }).pgn.stopSetpoint = some sp
      then s.updatePeer d.member fun p => { p with resume := true }
      else (s.updatePeer d.member fun p => { p with resume := true }).raise .syncDeviation) := .ite (fun _ => g) (g.raise _)
  exact .ite (fun _ => tested.checkResumeBarrier x) h

theorem Recorded.deliverHandover (h : Recorded s) (d : Delivery) (i : IndexNo) (c : Option PalletRecord) :
    Recorded (s.deliverHandover d i c) := by
  have own : Recorded (s.ownHandoverObserved i) := by
    unfold State.ownHandoverObserved
    split
    · exact .ite (fun _ => Recorded.tryLowered h.of_rest) h
    · exact h
  exact .ite (fun _ => own) (.ite (fun _ => h.of_rest) h)

theorem Recorded.deliverBeat (h : Recorded s) (d : Delivery) (x : LineTime) (st : StepState) : Recorded (s.deliverBeat d x st) :=
  .ite (fun _ => h.updatePeer _ _) (Recorded.updatePeer h.of_rest _ _)

/-- Table 0-2: what the owner of a frame's kind does keeps the laws. -/
theorem Recorded.deliver (h : Recorded s) (d : Delivery) (f : Frame) : Recorded (s.deliver d f) := by
  unfold State.deliver
  split
  · exact .ite (fun _ => (h.updatePeer _ _).takeStop _) h
  · exact .ite (fun _ => (h.updatePeer _ _).checkLiftedBarrier _) h
  · exact .ite (fun _ => (h.updatePeer _ _).endUpstreamWait _) (h.updatePeer _ _)
  · exact h.deliverResume _ _ _ _
  · exact .ite (fun _ => ((h.updatePeer _ _).updateImage _ _).checkReadyBarrier) h
  · exact h.updatePeer _ _
  · exact h.deliverHandover _ _ _
  · exact .ite (fun _ => (h.updatePeer _ _).raise _) (h.updatePeer _ _)
  · exact h.deliverBeat _ _ _
  · exact h.deliverJoin _ _

theorem Recorded.marked (h : Recorded s) : Recorded s.marked := by
  have link : Recorded { s with lpt := s.lpt.mark.1 } := h.of_rest
  unfold State.marked
  dsimp only
  split
  · exact ((link.raise _).frameRemoved _).close
  · exact link

theorem Recorded.take (h : Recorded s) (f : Frame) : Recorded (s.take f) := by
  have link : Recorded { s with lpt := s.lpt.observed (s.isOwnAttempt f) } := h.of_rest
  rcases take_cases s f with ⟨-, e⟩ | ⟨-, -, e⟩ | ⟨-, -, e⟩ <;> rw [e]
  · exact link
  · exact Recorded.close link.of_rest
  · have heard : Recorded (({ s with lpt := s.lpt.observed (s.isOwnAttempt f) } : State).hear
        (s.memberList.idxOf f.header.sender)) := link.updatePeer _ _
    exact (heard.deliver _ f).close

theorem Recorded.observe (h : Recorded s) (f : Frame) : Recorded (s.observe f) := by
  have yields : Recorded (s.yieldTo f) := .ite (fun _ => h.of_rest) h
  rcases observe_cases s f with ⟨-, e⟩ | ⟨-, -, e⟩ | ⟨-, -, e⟩ <;> rw [e]
  · exact h
  · exact yields.marked
  · exact yields.take f

/-! Configuration, formation, reset and time. -/

/-- R161: the number of members may change in OFFLINE only. -/
theorem Recorded.setItems (h : Recorded s) (off : s.ixs.state = .offline) (it : Items) : Recorded { s with items := it } :=
  ⟨h.record, fun on => absurd off on, h.image, h.fixture⟩

/-- R137, R165: JOIN sets up one peer record and one unknown slot for each entry of MEMBERS. -/
theorem Recorded.formed (h : Recorded s) : Recorded s.formed where
  record := h.record
  each _ := ⟨List.length_replicate, List.length_replicate⟩
  image := by
    have unknown : ∀ x ∈ s.formed.sim.slots ++ [s.formed.sim.exitSlot], slotId x = none := fun x i => by
      rcases List.mem_append.1 i with i | i
      · rw [List.eq_of_mem_replicate i]
        rfl
      · rw [List.mem_singleton.1 i]
        rfl
    exact List.pairwise_of_forall_mem_list fun x i _ _ _ a => by rw [unknown x i] at a; cases a
  fixture := h.fixture

theorem Recorded.fixtureAtJoin (h : Recorded s) : Recorded s.fixtureAtJoin := by
  have unknown : Recorded (s.setFixture .unknown none) := h.setFixture (by simp)
  unfold State.fixtureAtJoin
  have empty : Recorded (s.setFixture .empty none) := h.setFixture (by simp)
  refine .ite (fun _ => ?_) empty.openFixture
  dsimp only
  split
  · exact unknown.withFixture (h.fixture.withTimers _ s.fxs.clampTimer) s.inputs
  · exact unknown.withFixture (h.fixture.withTimers s.fxs.stepTimer _) s.inputs
  · exact unknown

theorem Recorded.takeJoin (h : Recorded s) : Recorded s.takeJoin := by
  have queued : Recorded (s.formed.fixtureAtJoin.queueFrame s.formed.fixtureAtJoin.joinPayload) := h.formed.fixtureAtJoin.of_rest
  have fault {u : State} (k : Recorded u) : Recorded (if u.inputs.driveFault then u.raise .driveFault else u) :=
    .ite (fun _ => k.raise _) k
  have emergency {u : State} (k : Recorded u) : Recorded (if u.inputs.emergency then u.raise .emergency else u) :=
    .ite (fun _ => k.raise _) k
  exact (emergency (fault queued)).close

theorem Recorded.takeRecord (h : Recorded s) (on : s.ixs.state ≠ .offline) (r : PalletRecord) : Recorded (s.takeRecord r) := by
  have held : Recorded (s.setFixture .held (some r)) := h.setFixture (by simp)
  have step : Recorded ((s.setFixture .held (some r)).goStep .seat) := held.of_rest
  exact (step.enter on .seating).seatFixture.close

/-- The state after reset satisfies the laws. -/
theorem recorded_resetBy (cause : ResetCause) : Recorded (State.resetBy cause) := by
  obtain ⟨-, ⟨record, each, image, fixture⟩, -⟩ := SectionLine.resetSatisfiesInvariants cause
  exact ⟨record, each, (imageDistinct_iff _).1 image, fixture⟩

theorem Recorded.runOn (h : Recorded s) : Recorded s.runOn := by
  unfold State.runOn
  split
  · exact h.of_rest
  · have aged : Recorded { s.tick with fxs := s.fxs } := h.of_rest (hp := List.length_map Peer.age)
    exact aged.withFixture ((h.fixture.withTimers _ _).settleOn s.inputs) s.tick.inputs

/-! The commands. -/

/-- Every state that an answer gives satisfies the laws. -/
def AnswerRecorded (a : Answer) : Prop := ∀ t : State, a = .next t → Recorded t

theorem Recorded.next (h : Recorded s) : AnswerRecorded (.next s) := fun _ e => by cases e; exact h

theorem AnswerRecorded.ite {b : Prop} [Decidable b] {x y : Answer} (h : b → AnswerRecorded x) (k : ¬b → AnswerRecorded y) :
    AnswerRecorded (if b then x else y) := by
  split
  · exact h ‹b›
  · exact k ‹¬b›

/-- An answer that takes place under a condition, and leaves the state as it is without it. -/
theorem Recorded.nextIf (h : Recorded s) {b : Prop} [Decidable b] (k : b → Recorded t) :
    AnswerRecorded (if b then .next t.close else .next s) := .ite (fun e => (k e).close.next) fun _ => h.next

theorem Recorded.respond (h : Recorded s) (n : Nat) (k : Byte) (x : Status) (f : List Byte) :
    AnswerRecorded (.next (s.respond n k x f)) := Recorded.next h.of_rest

theorem Recorded.refuse (h : Recorded s) (n : Nat) (k : Byte) (x : Status) : AnswerRecorded (.next (s.refuse n k x)) :=
  h.respond n k x []

/-- Table 10-1: SET_ITEM, which is refused outside OFFLINE. -/
theorem Recorded.execSetItem (h : Recorded s) (w : ItemWrite) : AnswerRecorded (execSetItem w s) := by
  refine .ite (fun off => ?_) fun _ => h.refuse _ _ _
  have level (har : Har) : Recorded { s with har := har } := h.of_rest
  split
  · split
    · exact (level _).respond _ _ _ _
    · exact h.refuse _ _ _
  · split
    · exact (h.setItems (by simpa [State.offline] using off) _).respond _ _ _ _
    · exact h.refuse _ _ _

theorem Recorded.execJoin (h : Recorded s) : AnswerRecorded (execJoin s) := by
  refine .ite (fun _ => .ite (fun _ => .ite (fun _ => ?_) ?_) ?_) ?_
  · exact h.takeJoin.respond _ _ _ _
  all_goals exact fun _ => h.refuse _ _ _

theorem Recorded.execLoadEntry (h : Recorded s) (os : List Byte) : AnswerRecorded (execLoadEntry os s) := by
  unfold Machine.execLoadEntry
  split
  · exact h.refuse _ _ _
  · rename_i r _
    refine .ite (fun _ => h.refuse _ _ _) fun taken => .ite (fun _ => h.refuse _ _ _) fun _ => ?_
    have entry := (SectionLine.entryState_iff s).2 (by simpa using taken)
    exact (h.takeRecord (by rw [entry.2.1]; exact nofun) r).respond _ _ _ _

theorem Recorded.execLoadFixture (h : Recorded s) (os : List Byte) : AnswerRecorded (execLoadFixture os s) := by
  unfold Machine.execLoadFixture
  split
  · exact h.refuse _ _ _
  · rename_i r _
    refine .ite (fun _ => h.refuse _ _ _) fun taken => .ite (fun _ => h.refuse _ _ _) fun _ => ?_
    have load := (SectionLine.fixtureLoadState_iff s).2 (by simpa using taken)
    exact (h.takeRecord (by rw [load.1]; exact nofun) r).respond _ _ _ _

theorem Recorded.execGetIncoming (h : Recorded s) : AnswerRecorded (execGetIncoming s) := by
  refine .ite (fun _ => h.refuse _ _ _) fun _ => ?_
  split <;> exact h.respond _ _ _ _

theorem Recorded.execGetPeer (h : Recorded s) (b : Byte) : AnswerRecorded (execGetPeer b s) := by
  refine .ite (fun _ => h.refuse _ _ _) fun _ => .ite (fun _ => h.refuse _ _ _) fun _ => ?_
  split
  · exact h.respond _ _ _ _
  · exact h.refuse _ _ _

theorem Recorded.execClearCause (h : Recorded s) (b : Byte) : AnswerRecorded (execClearCause b s) := by
  unfold Machine.execClearCause
  split
  · exact h.refuse _ _ _
  · rename_i c _
    have cleared : Recorded (if c.latched then s.unpend c else s) := .ite (fun _ => h.of_frame (unpend_frame s c)) h
    exact .ite (fun _ => h.refuse _ _ _) fun _ => .ite (fun _ => h.refuse _ _ _) fun _ => cleared.close.respond _ _ _ _

theorem Recorded.execReportResult (h : Recorded s) (b : Byte) : AnswerRecorded (execReportResult b s) := by
  unfold Machine.execReportResult
  split
  · exact h.refuse _ _ _
  · have reported (x : Option MachResult) : Recorded { s with ixs := { s.ixs with pendingResult := x } } := h.of_rest
    exact .ite (fun _ => (reported _).respond _ _ _ _) fun _ => h.refuse _ _ _

theorem Recorded.execTakeExitRecord (h : Recorded s) : AnswerRecorded (execTakeExitRecord s) := by
  refine .ite (fun _ => h.refuse _ _ _) fun _ => ?_
  split
  · have left (l : List PalletRecord) : Recorded { s with rst := { s.rst with exitQueue := l } } := h.of_rest
    exact (left _).close.respond _ _ _ _
  · exact h.respond _ _ _ _

theorem Recorded.execResume (h : Recorded s) : AnswerRecorded (execResume s) := by
  refine .ite (fun stopped => .ite (fun _ => h.refuse _ _ _) fun _ => ?_) fun _ => h.refuse _ _ _
  have kept : s.resumeDrive.ixs = s.ixs := by unfold State.resumeDrive; split <;> rfl
  have driven : Recorded s.resumeDrive := .ite (fun _ => h.of_rest) h.of_rest
  exact (driven.enter (by rw [kept, stopped]; exact nofun) _).resumeOffer.close.respond _ _ _ _

theorem Recorded.execReset (h : Recorded s) (cause : ResetCause) (b : Bool) : AnswerRecorded (execReset cause b s) := by
  have reset (u : State) : Recorded (u.resetPart cause) := (recorded_resetBy cause).of_rest
  exact .ite (fun _ => .ite (fun _ => (reset _).next) fun _ => Recorded.next h.of_rest) fun _ => (reset s).next

theorem Recorded.execFrameStart (h : Recorded s) (own : Bool) : AnswerRecorded (execFrameStart own s) :=
  .ite (fun _ => .ite (fun _ => .ite (fun _ => h.next) fun _ => Recorded.next h.of_rest) fun _ => Recorded.next h.of_rest)
    fun _ => h.next

theorem Recorded.execBeatInstant (h : Recorded s) : AnswerRecorded (execBeatInstant s) := by
  unfold Machine.execBeatInstant
  split
  · rename_i b _
    have taken : Recorded (s.takeBeat b) := h.of_rest
    have beaten : Recorded (s.beat b) := .ite (fun _ => taken.raise _) taken
    exact beaten.close.next
  · exact h.next

/-- R35, R111, R120, R137, R142, Table 6-2: every command keeps the laws. -/
theorem Recorded.exec (h : Recorded s) (i : Instr) : AnswerRecorded (exec i s) := by
  cases i with
  | setItem w => exact h.execSetItem w
  | join => exact h.execJoin
  | getStatus => exact h.respond _ _ _ _
  | getCauses => exact h.respond _ _ _ _
  | clearCause c => exact h.execClearCause c
  | setAttnMask m =>
    have masked (x : Har) : Recorded ({ s with har := x } : State).refreshPins := h.of_rest
    exact .ite (fun _ => (masked _).respond _ _ _ _) fun _ => h.refuse _ _ _
  | reportResult c => exact h.execReportResult c
  | loadEntry os => exact h.execLoadEntry os
  | loadFixture os => exact h.execLoadFixture os
  | declareEmpty =>
    have declared : Recorded (s.setFixture .empty none).openFixture := (h.setFixture (by simp)).openFixture
    exact .ite (fun _ => declared.close.respond _ _ _ _) fun _ => h.refuse _ _ _
  | getFixtureRecord => exact h.respond _ _ _ _
  | getIncoming => exact h.execGetIncoming
  | takeExitRecord => exact h.execTakeExitRecord
  | getImage => exact .ite (fun _ => h.refuse _ _ _) fun _ => h.respond _ _ _ _
  | getPeer n => exact h.execGetPeer n
  | resume => exact h.execResume
  | malformedRequest k => exact h.refuse _ _ _
  | noneTransaction n => exact Recorded.next h.of_rest
  | reset c b => exact h.execReset c b
  | linkIdleSeen => exact Recorded.next h.of_rest
  | frameStart own => exact h.execFrameStart own
  | arbitrationLost => exact Recorded.next h.of_rest
  | frameMarked => exact .ite (fun _ => h.marked.next) fun _ => h.next
  | foreignFrameObserved f => exact (h.observe _).next
  | beatObserved x p => exact (h.observe _).next
  | joinObserved x p => exact (h.observe _).next
  | readyObserved x p => exact (h.observe _).next
  | liftedObserved x p => exact (h.observe _).next
  | loweredObserved x p => exact (h.observe _).next
  | resumeObserved x p q => exact (h.observe _).next
  | stopObserved x p q r => exact (h.observe _).next
  | holdObserved x p q => exact (h.observe _).next
  | positionObserved x p => exact (h.observe _).next
  | handoverObserved x p q => exact (h.observe _).next
  | foreignFrameTimerExpiry => exact h.nextIf fun _ => h.of_rest
  | beatInstant => exact h.execBeatInstant
  | memberSilent n => exact h.nextIf fun _ => h.updatePeer _ _
  | joinRepetition => exact .ite (fun _ => Recorded.next h.of_rest) fun _ => h.next
  | readyOffer =>
    refine h.nextIf fun may => h.of_rest fun _ => ?_
    rw [((StepTime.mayOfferReady_iff s).1 may).1]
    exact nofun
  | formingExit =>
    refine h.nextIf fun may => h.of_rest fun _ => ?_
    rw [((StepTime.mayLeaveForming_iff s).1 may).1]
    exact nofun
  | homingStart => exact .ite (fun _ => h.startHoming.next) fun _ => h.next
  | liftBarrierTimerExpiry => exact h.nextIf fun _ => Recorded.raise h.of_rest _
  | loweringTimerExpiry => exact h.nextIf fun _ => Recorded.raise h.of_rest _
  | upstreamTimerExpiry => exact h.nextIf fun _ => Recorded.raise h.of_rest _
  | homingTimerExpiry => exact h.nextIf fun _ => Recorded.raise (Recorded.giveUpHoming h.of_rest) _
  | homeCheckTimerExpiry => exact h.nextIf fun _ => Recorded.raise h.of_rest _
  | releaseStepTimerExpiry => exact h.nextIf fun _ => (h.withFixture (h.fixture.withTimers none _) s.inputs).raise _
  | locateTimerExpiry => exact h.nextIf fun _ => (h.withFixture (h.fixture.withTimers none _) s.inputs).raise _
  | clampTimerExpiry => exact h.nextIf fun _ => (h.withFixture (h.fixture.withTimers _ none) s.inputs).raise _
  | settleMarkSet => exact h.nextIf h.setSettleMark
  | profileOrigin => exact h.nextIf fun _ => h.reachOrigin
  | localProfileStart => exact h.nextIf fun _ => h.startLocal
  | periodEnd => exact h.nextIf fun _ => h.endPeriod
  | setpointWordRepeat => exact h.nextIf fun _ => h.startWord
  | setpointWordEnd => exact h.nextIf fun _ => h.startWord
  | machClearDrop =>
    have raised (x : Inputs) : Recorded (({ s with inputs := x } : State).raise .machIntrusion) := Recorded.raise h.of_rest _
    exact .ite (fun _ => .ite (fun _ => (raised _).close.next) fun _ => Recorded.next h.of_rest) fun _ => h.next
  | emergencyOn => exact .ite (fun _ => h.next) fun _ => (Recorded.raise h.of_rest _).close.next
  | driveFaultOn => exact .ite (fun _ => h.next) fun _ => (Recorded.raise h.of_rest _).close.next
  | clampPressureOff => exact h.nextIf fun _ => h.losePressure
  | clampPressureMade => exact Recorded.next h.of_rest
  | locatorsEngaged a b =>
    have g : Recorded { s with inputs := { s.inputs with locator1 := s.inputs.locator1 || a, locator2 := s.inputs.locator2 || b } } :=
      h.of_rest
    exact g.checkLocated.next
  | locatorOff a b => exact h.nextIf fun _ => h.loseLocators a b
  | palletPresentChange b => exact Recorded.next h.of_rest
  | plateCodeChange c => exact Recorded.next h.of_rest
  | liftUpSensorOn =>
    exact .ite (fun _ => h.next) fun _ => .ite (fun _ => (Recorded.liftReported h.of_rest).close.next) fun _ => Recorded.next h.of_rest
  | liftDownSensorOn =>
    exact .ite (fun _ => h.next) fun _ =>
      .ite (fun _ => (Recorded.liftDownReported h.of_rest).close.next) fun _ => Recorded.next h.of_rest
  | liftSensorOff up =>
    exact .ite (fun _ => h.next) fun _ => .ite (fun _ => Recorded.next h.of_rest) fun _ => Recorded.next h.of_rest
  | homeSensorChange on =>
    exact .ite (fun _ => h.next) fun _ => .ite (fun _ => Recorded.next h.of_rest) fun _ => Recorded.next h.of_rest
  | encoderEdge d => exact Recorded.next h.of_rest
  | machClearOn => exact Recorded.next h.of_rest
  | emergencyOff => exact Recorded.next h.of_rest
  | driveFaultOff => exact Recorded.next h.of_rest
  | homeCapture b => exact Recorded.next h.of_rest

theorem Recorded.step (h : Recorded s) : AnswerRecorded (step s) := by
  unfold Machine.step
  split
  · have g : ∀ l : List Instr, Recorded { s with pending := l } := fun _ => h.of_rest
    exact (g _).exec _
  · exact h.runOn.next

theorem recorded_iff : Recorded s ↔ RecordWithHeld s ∧ OneRecordEach s ∧ ImageDistinct s ∧ FixtureOutputs s := by
  rw [imageDistinct_iff, fixtureOutputs_iff]
  exact ⟨fun h => ⟨h.record, h.each, h.image, h.fixture⟩, fun ⟨a, b, c, d⟩ => ⟨a, b, c, d⟩⟩

/-- Settles O56: every operation keeps the laws of `Recorded`. A status is set with its record (`Recorded.setFixture`), a slot is written or
moved without doubling an id (`Distinct.write`, `Distinct.shift`), the fixture goes by its commands and sensors alone, and OFFLINE is left
by JOIN only, which makes one record and one slot for each member (`Recorded.formed`). -/
theorem recordsImageAndFixtureKept : Obligations.RecordsImageAndFixtureKept :=
  fun _ t inv e => recorded_iff.1 ((recorded_iff.2 inv).step t e)

end Sys2Proof.RecordLaws
end

section
/-! The refusals of the requests other than SET_ITEM, JOIN and the two that load a record (R63, R121, R131, R133, R135, R144, R151, R158,
R176). -/

set_option Elab.async false

namespace Sys2Proof.RequestRefusals

open Sys2Proof.Machine Sys2Proof.Safety Sys2Proof.Claims Sys2Proof.StepTime Sys2Proof.SectionLine Sys2Proof.SectionFormation

variable {s : State}

/-- A request whose answer is a refusal leaves the refused state. -/
theorem next_refused {i : Instr} {n : Nat} {k : Byte} {x : Status} (e : exec i s = .next (s.refuse n k x)) :
    exec i s = .next (Refused s n k x) := by rw [e, refused_eq]

theorem offline_iff (s : State) : s.offline = true ↔ s.ixs.state = .offline := beq_iff_eq

theorem ofNumber_none {n : Nat} (large : 23 < n) : Cause.ofNumber n = none := List.getElem?_eq_none large

theorem result_ofCode_none {n : Nat} (large : 3 < n) : MachResult.ofCode n = none := by
  match n with
  | 0 | 1 | 2 | 3 => omega
  | _ + 4 => rfl

theorem result_ofCode (r : MachResult) : MachResult.ofCode (BitVec.ofNat 8 r.code).toNat = some r := by cases r <;> rfl

/-! Readings (R135, R144, R176). -/

theorem getIncoming_refused (h : s.ixs.state = .offline ∨ s.isLoad = true) :
    exec .getIncoming s = .next (Refused s 4 12 .refusedState) :=
  next_refused (if_pos (by simpa [offline_iff] using h))

theorem getImage_refused (off : s.ixs.state = .offline) : exec .getImage s = .next (Refused s 4 14 .refusedState) :=
  next_refused (if_pos ((offline_iff s).2 off))

theorem getPeer_refused_value {b : Byte} (h : b.toNat = 0 ∨ 63 < b.toNat) :
    exec (.getPeer b) s = .next (Refused s 5 15 .refusedValue) := next_refused (if_pos h)

theorem getPeer_refused_state {b : Byte} (lo : 1 ≤ b.toNat) (hi : b.toNat ≤ 63) (off : s.ixs.state = .offline) :
    exec (.getPeer b) s = .next (Refused s 5 15 .refusedState) := by
  have number : ¬(b.toNat = 0 ∨ 63 < b.toNat) := by omega
  exact next_refused ((if_neg number).trans (if_pos ((offline_iff s).2 off)))

/-- R176: a station number that MEMBERS does not hold; one outside 1 to 63 is refused in the same way. -/
theorem getPeer_refused_member {b : Byte} (on : s.ixs.state ≠ .offline) (each : s.peers.length = s.memberCount)
    (other : b.toNat ∉ s.memberList) : exec (.getPeer b) s = .next (Refused s 5 15 .refusedValue) := by
  by_cases number : b.toNat = 0 ∨ 63 < b.toNat
  · exact getPeer_refused_value number
  · have none : s.peers[s.memberList.idxOf b.toNat]? = none := by
      rw [List.idxOf_eq_length other, List.getElem?_eq_none_iff, each]
      rfl
    refine next_refused (((if_neg number).trans (if_neg (mt (offline_iff s).1 on))).trans ?_)
    rw [none]
    rfl

/-! Causes (R151, R158). -/

theorem clearCause_refused_value {b : Byte} (h : 23 < b.toNat) :
    exec (.clearCause b) s = .next (Refused s 5 5 .refusedValue) := by
  refine next_refused ?_
  change execClearCause b s = _
  rw [execClearCause, ofNumber_none h]
  rfl

theorem clearCause_refused_state (c : Cause) (off : s.ixs.state = .offline) :
    exec (.clearCause (BitVec.ofNat 8 c.number)) s = .next (Refused s 5 5 .refusedState) := by
  refine next_refused ?_
  change execClearCause _ s = _
  rw [execClearCause, ofNumber_octet]
  exact if_pos ((offline_iff s).2 off)

theorem clearCause_refused_active {c : Cause} (on : s.ixs.state ≠ .offline) (present : Condition s c) :
    exec (.clearCause (BitVec.ofNat 8 c.number)) s = .next (Refused s 5 5 .refusedActive) := by
  refine next_refused ?_
  change execClearCause _ s = _
  rw [execClearCause, ofNumber_octet]
  exact (if_neg (mt (offline_iff s).1 on)).trans (if_pos ((condition_iff s c).2 present))

theorem setAttnMask_refused {b : Byte} (h : 127 < b.toNat) : exec (.setAttnMask b) s = .next (Refused s 5 6 .refusedValue) :=
  next_refused (if_neg (by omega))

/-! Records (R121, R131, R133). -/

theorem reportResult_refused_value {b : Byte} (h : 3 < b.toNat) :
    exec (.reportResult b) s = .next (Refused s 5 7 .refusedValue) := by
  refine next_refused ?_
  change execReportResult b s = _
  rw [execReportResult, result_ofCode_none h]
  rfl

theorem reportResult_refused_state (r : MachResult) (h : s.ixs.state ≠ .working ∨ s.rst.status ≠ .held) :
    exec (.reportResult (BitVec.ofNat 8 r.code)) s = .next (Refused s 5 7 .refusedState) := by
  refine next_refused ?_
  change execReportResult _ s = _
  rw [execReportResult, result_ofCode]
  exact if_neg (by tauto)

theorem declares_iff (x : SeqState) : x.declares = true ↔ x = .forming ∨ x = .working ∨ x = .seating := by
  cases x <;> simp [SeqState.declares]

theorem declareEmpty_refused (h : (s.ixs.state ≠ .forming ∧ s.ixs.state ≠ .working ∧ s.ixs.state ≠ .seating)
    ∨ s.rst.status ≠ .unknown ∨ s.inputs.palletPresent = true) :
    exec .declareEmpty s = .next (Refused s 4 10 .refusedState) := by
  refine next_refused (if_neg ?_)
  simp only [Bool.and_eq_true, declares_iff, beq_iff_eq, Bool.not_eq_true']
  rintro ⟨⟨state, status⟩, absent⟩
  rcases h with ⟨a, b, c⟩ | other | present
  · exact state.elim a (Or.rec b c)
  · exact other status
  · rw [present] at absent
    cases absent

theorem takeExitRecord_refused (h : s.ixs.state = .offline ∨ s.isUnload = false) :
    exec .takeExitRecord s = .next (Refused s 4 13 .refusedState) :=
  next_refused (if_pos (by simpa [offline_iff] using h))

/-! Resume (R63). -/

theorem resume_refused_state (h : s.ixs.state ≠ .stopped) : exec .resume s = .next (Refused s 4 16 .refusedState) :=
  next_refused (if_neg h)

theorem resume_refused_active (stopped : s.ixs.state = .stopped) (h : s.har.stopPending = true) :
    exec .resume s = .next (Refused s 4 16 .refusedActive) := next_refused ((if_pos stopped).trans (if_pos h))

/-- Settles O10: each request's tests in their order, and the one that fails. -/
theorem requestsRefused : Obligations.RequestsRefused := fun _ =>
  ⟨getIncoming_refused, getImage_refused, fun _ => getPeer_refused_value, fun _ => getPeer_refused_state,
    fun _ => getPeer_refused_member, fun _ => clearCause_refused_value, clearCause_refused_state,
    fun _ => clearCause_refused_active, fun _ => setAttnMask_refused, fun _ => reportResult_refused_value,
    reportResult_refused_state, declareEmpty_refused, takeExitRecord_refused, resume_refused_state, resume_refused_active⟩

end Sys2Proof.RequestRefusals
end

section
/-! HOLD, LOWERED and HANDOVER at their observation (R41, R45, R59, R124, R125, R154). -/

set_option Elab.async false

namespace Sys2Proof.ColumnFrames

open Sys2Proof.Machine Sys2Proof.Safety Sys2Proof.Claims

variable {s : State} {h : Header} {m : Nat} {own : Bool} {clock : FrameClock}

/-- R7, R13: what a frame of a member that arrives leads to. -/
theorem observe_delivers {p : Payload} (arrives : Arrives s h p m own clock) {u : State}
    (e : (Arrived s m own).deliver ⟨m, own, clock⟩ ⟨h, p⟩ = u) : s.observe ⟨h, p⟩ = u.close := by
  rw [observe_arrives arrives, e]

/-! HOLD and LOWERED (R41, R45, R154). -/

theorem deliverHold_eq (s : State) (d : Delivery) (lv c : Nat) :
    s.deliverHold d lv c = { s with peers := updateAt (fun p => { p with
      level := lv, cause := c, ready := if 4 ≤ lv then false else p.ready }) d.member s.peers } := by
  have mark (p : Peer) : (p.ready && decide (lv < 4)) = if 4 ≤ lv then false else p.ready := by
    split
    · rw [decide_eq_false (by omega), Bool.and_false]
    · rw [decide_eq_true (by omega), Bool.and_true]
  simp only [State.deliverHold, State.updatePeer, mark]

/-- R60: outside the wait for the member directly upstream, a frame of a member ends no wait. -/
theorem endUpstreamWait_other {m : Nat} (h : ¬(s.ixs.state = .seating ∧ s.ixs.step = .upstream ∧ m + 1 = s.ownIdx)) :
    s.endUpstreamWait m = s := if_neg h

/-- R41: LOWERED that ends no wait writes its sender's last LOWERED index alone. -/
theorem deliverLowered_other {d : Delivery} {i : IndexNo}
    (h : ¬(i = s.indexMade ∧ s.ixs.state = .seating ∧ s.ixs.step = .upstream ∧ d.member + 1 = s.ownIdx)) :
    s.deliverLowered d i = s.updatePeer d.member fun p => { p with lastLowered := some i } := by
  unfold State.deliverLowered
  dsimp only
  split
  · rename_i made
    exact endUpstreamWait_other (s := s.updatePeer d.member _) fun waits => h ⟨made, waits⟩
  · rfl

/-- Settles O32: the two frames write columns of their sender's record and do nothing else. -/
theorem holdAndLoweredWriteColumns : Obligations.HoldAndLoweredWriteColumns := by
  intro s h m own clock
  refine ⟨fun lv c arrives => ⟨_, congrArg Host.Outcome.next (observe_delivers arrives (deliverHold_eq _ _ _ _)), close_follows _⟩,
    fun i arrives other => ⟨_, congrArg Host.Outcome.next (observe_delivers arrives (deliverLowered_other ?_)), close_follows _⟩⟩
  exact other

/-! HANDOVER (R59, R124, R125). -/

/-- R59: outside the wait of LOWERING for the own HANDOVER nothing is queued. -/
theorem tryLowered_unawaited (h : ¬(s.ixs.state = .lowering ∧ s.ixs.step = .handover)) : s.tryLowered = s :=
  if_neg fun waits => h ⟨waits.1, waits.2.1⟩

theorem takesHandover_iff (s : State) (i : IndexNo) : s.takesHandover i = true ↔
    (s.ixs.state ∈ [SeqState.moving, .stopping, .stopped, .resumeWait] ∧ i = s.ixs.index)
      ∨ ((s.ixs.state = .lowering ∨ (s.ixs.state = .seating ∧ s.ixs.step = .upstream)) ∧ i = s.indexMade) := by
  have exchanging : s.ixs.state.exchanging = true ↔ s.ixs.state ∈ [SeqState.moving, .stopping, .stopped, .resumeWait] := by
    cases s.ixs.state <;> simp [SeqState.exchanging]
  simp only [State.takesHandover, Bool.or_eq_true, Bool.and_eq_true, exchanging, beq_iff_eq]

/-- R125: HANDOVER of another member, as wanted or left. -/
theorem deliverHandover_other (m : Nat) (clock : FrameClock) (i : IndexNo) (c : Option PalletRecord) :
    ((s.isLoad = false ∧ m + 1 = s.ownIdx ∧ s.takesHandover i = true) →
        s.deliverHandover ⟨m, false, clock⟩ i c = { s with rst := { s.rst with incoming := some ⟨i, c⟩ } })
      ∧ (¬(s.isLoad = false ∧ m + 1 = s.ownIdx ∧ s.takesHandover i = true) →
        s.deliverHandover ⟨m, false, clock⟩ i c = s) := by
  have test : (!s.isLoad && m + 1 == s.ownIdx && s.takesHandover i) = true
      ↔ s.isLoad = false ∧ m + 1 = s.ownIdx ∧ s.takesHandover i = true := by
    simp only [Bool.and_eq_true, Bool.not_eq_true', beq_iff_eq, and_assoc]
  exact ⟨fun wanted => if_pos (test.2 wanted), fun left => if_neg (mt test.1 left)⟩

/-- R124: the station once its own HANDOVER has set the outgoing record OBSERVED. -/
def OwnObserved (s : State) (o : Outgoing) : State :=
  { s with rst := { s.rst with outgoing := some { o with state := .observed } }, ixs := { s.ixs with ownHandover := true } }

/-- R124: the own HANDOVER sets its record OBSERVED; one that is not the outgoing record's is left. -/
theorem ownHandoverObserved_eq {o : Outgoing} (out : s.rst.outgoing = some o) (i : IndexNo) :
    s.ownHandoverObserved i = if o.index = i then (OwnObserved s o).tryLowered else s := by
  unfold State.ownHandoverObserved
  rw [out]
  rfl

/-- Settles O34: HANDOVER of another member by the test of R125, the own one by its record's index. -/
theorem handoverObserved : Obligations.HandoverObserved := by
  intro s h i c m own clock arrives a wanted
  have delivered : s.observe ⟨h, .handover i c⟩ = (a.deliverHandover ⟨m, own, clock⟩ i c).close := observe_arrives arrives
  have test : a.isLoad = false ∧ m + 1 = a.ownIdx ∧ a.takesHandover i = true ↔ wanted :=
    and_congr Iff.rfl (and_congr Iff.rfl (takesHandover_iff a i))
  refine ⟨_, congrArg Host.Outcome.next delivered, fun other takes => ?_, fun other left => ?_, fun mine idle o out => ⟨?_, ?_⟩⟩
  · subst other
    rw [(deliverHandover_other m clock i c).1 (test.2 takes)]
    exact close_follows _
  · subst other
    rw [(deliverHandover_other m clock i c).2 (mt test.1 left)]
    exact close_follows _
  · intro differs
    subst mine
    have left : a.deliverHandover ⟨m, true, clock⟩ i c = a := (ownHandoverObserved_eq (s := a) out i).trans (if_neg differs)
    rw [left]
    exact close_follows _
  · intro same
    subst mine
    have taken : a.deliverHandover ⟨m, true, clock⟩ i c = OwnObserved a o :=
      ((ownHandoverObserved_eq (s := a) out i).trans (if_pos same)).trans (tryLowered_unawaited (s := OwnObserved a o) idle)
    rw [taken]
    exact close_follows _

end Sys2Proof.ColumnFrames
end

section
/-! READY_OFFER (R42, R122). -/

set_option Elab.async false

namespace Sys2Proof.ReadyOffer

open Sys2Proof.Machine Sys2Proof.Safety Sys2Proof.Claims Sys2Proof.StepTime Sys2Proof.SectionLine Sys2Proof.MotionProfiles

variable {s t : State}

/-- R42: the station with its READY queued, in READY. -/
def Offered (s : State) : State := (s.queueFrame s.readyPayload).enter .ready

theorem exec_readyOffer_taken (goes : ReadyGoes s) : exec .readyOffer s = .next (Offered s).close :=
  if_pos ((mayOfferReady_iff s).2 goes)

theorem exec_readyOffer_left (stays : ¬ReadyGoes s) : exec .readyOffer s = .next s :=
  if_neg (mt (mayOfferReady_iff s).1 stays)

/-- R148: no self-clearing cause is judged by READY or by what is queued. -/
theorem offered_settled (working : s.ixs.state = .working) (settled : CausesSettled s) : CausesSettled (Offered s) :=
  fun c self => by
    have offline : (Offered s).offline = s.offline := by
      rw [State.offline, State.offline, working]
      rfl
    rw [condition_congr (s := s) (t := Offered s) offline rfl rfl rfl rfl rfl rfl self]
    exact settled c self

/-- R9: the READY stands in the queue. -/
theorem offered_queued (s : State) : ∃ q ∈ (Offered s).lpt.queue, q.payload = s.readyPayload :=
  ⟨_, mem_insertFrame_self ⟨s.lpt.nextId, s.readyPayload⟩ s.lpt.queue, rfl⟩

theorem readyPayload_kind (s : State) : s.readyPayload.kind = .ready := by
  unfold State.readyPayload
  split <;> rfl

/-- R42, R43: where no cause changes, or the announced level stays at 3 or below, the station stays in READY with its frame. -/
theorem offered_stays (goes : ReadyGoes s)
    (calm : CausesSettled s ∨ (s.har.causes.length = 24 ∧ PairAnnounced s ∧ (Offered s).close.har.announcedLevel ≤ 3)) :
    (Offered s).close.ixs.state = .ready ∧ ∃ q ∈ (Offered s).close.lpt.queue, q.payload = s.readyPayload := by
  obtain ⟨working, -, -, -, -, low, -⟩ := goes
  obtain ⟨q, queued, payload⟩ := offered_queued s
  rcases calm with settled | ⟨every, pair, still⟩
  · rw [close_settled _ (offered_settled working settled)]
    exact ⟨rfl, q, queued, payload⟩
  · obtain ⟨ixs, frames⟩ := (close_follows (Offered s)).ready every pair low still
    exact ⟨by rw [ixs]; rfl, q, (frames q (by rw [payload, readyPayload_kind])).2 queued, payload⟩

theorem readyPayload_empty (records : s.rst.status ≠ .held → s.rst.record = none) (empty : s.rst.status = .empty) :
    s.readyPayload = .ready ⟨s.ixs.index, 0, 0, .good, .empty⟩ := by
  rw [State.readyPayload, records (by rw [empty]; exact nofun)]
  simp only [empty]

theorem readyPayload_held {r : PalletRecord} {x : MachResult} (held : s.rst.status = .held) (record : s.rst.record = some r)
    (result : s.ixs.pendingResult = some x) : s.readyPayload
      = .ready ⟨s.ixs.index, r.id, r.variant, worseVerdict r.verdict (resultVerdict x), .held⟩ := by
  rw [State.readyPayload, record]
  simp only [held, forecast, result]

/-- R122: the forecast is the worse of the two verdicts. -/
theorem worseVerdict_code (v w : Verdict) : (worseVerdict v w).code = max v.code w.code := by
  unfold worseVerdict
  split <;> omega

/-- Settles O41: READY with the content of its instant (`readyPayload_empty`, `readyPayload_held`), which stays where no cause withdraws
it. -/
theorem readyOffered : Obligations.ReadyOffered := by
  intro s records
  refine ⟨fun goes empty => ?_, fun r x goes held record result => ?_, exec_readyOffer_left⟩
  · beta_reduce
    rw [← readyPayload_empty records empty]
    exact ⟨_, exec_readyOffer_taken goes, close_leads _, offered_stays goes⟩
  · refine ⟨_, worseVerdict_code _ _, ?_⟩
    beta_reduce
    rw [← readyPayload_held held record result]
    exact ⟨_, exec_readyOffer_taken goes, close_leads _, offered_stays goes⟩

end Sys2Proof.ReadyOffer
end

section
/-! The report of OPEN or SECURED where it ends a wait for the fixture, and DECLARE_EMPTY (R47, R53, R60, R105 to R107, R114, R131). -/

set_option Elab.async false

namespace Sys2Proof.FixtureReports

open Sys2Proof.Machine Sys2Proof.Safety Sys2Proof.Claims Sys2Proof.SectionLine Sys2Proof.StepTime Sys2Proof.MotionProfiles
  Sys2Proof.FixtureRelease

variable {s : State}

/-! The two commands and the report. -/

theorem openFixture_eq (s : State) : s.openFixture = ({ s with fxs := Opens s } : State).fixtureReported :=
  congrArg (fun f => State.fixtureReported { s with fxs := f }) (commandOpen_eq s)

theorem seatFixture_eq (s : State) : s.seatFixture = ({ s with fxs := Seats s } : State).fixtureReported :=
  congrArg (fun f => State.fixtureReported { s with fxs := f }) (commandSeat_eq s)

/-- R53, R60: the fixture and the status for which SEATING and ABANDONING wait. -/
def Settled (s : State) : Prop :=
  (s.fxs.state = .secured ∧ s.rst.status ≠ .empty) ∨ (s.fxs.state = .open ∧ s.rst.status = .empty)

theorem fixtureSettled_iff (s : State) : s.fixtureSettled = true ↔ Settled s := by
  simp [State.fixtureSettled, Settled]

theorem fixtureReported_stays (waits : AwaitsFixture s) (unsettled : ¬Settled s) : s.fixtureReported = s := by
  refine fixtureReported_unawaited (fun e => ?_) fun _ => Bool.eq_false_iff.2 (mt (fixtureSettled_iff s).1 unsettled)
  rcases waits with ⟨w, -⟩ | ⟨w, -⟩ <;> cases w.symm.trans e

/-- R53, R60: a station that waits for its fixture enters WORKING when it is settled. -/
theorem fixtureReported_awaited (waits : AwaitsFixture s) [Decidable (Settled s)] : s.fixtureReported = { s with
    ixs := { s.ixs with
      state := if Settled s then .working else s.ixs.state
      step := if Settled s then .none else s.ixs.step
      lowerExpired := if Settled s then none else s.ixs.lowerExpired } } := by
  by_cases settled : Settled s
  · rw [fixtureReported_ends waits ((fixtureSettled_iff s).2 settled), if_pos settled, if_pos settled, if_pos settled]
  · rw [fixtureReported_stays waits settled, if_neg settled, if_neg settled, if_neg settled]

/-- R47, R91: OPEN in RELEASING raises the lift; with it UP LIFTED is queued. -/
theorem fixtureReported_lifts (state : s.ixs.state = .releasing) (opened : s.fxs.state = .open) :
    s.fixtureReported = ({ s with ssv := s.ssv.raiseLift } : State).liftReported := by
  unfold State.fixtureReported
  rw [state]
  exact if_pos opened

/-! DECLARE_EMPTY (R131). -/

/-- R114, R120, R131: the fixture declared EMPTY and given the open command. -/
def DeclaredEmpty (s : State) : State :=
  { s with rst := { s.rst with status := .empty, record := none }, fxs := Opens s }

theorem exec_declareEmpty (state : s.ixs.state = .forming ∨ s.ixs.state = .working ∨ s.ixs.state = .seating)
    (unknown : s.rst.status = .unknown) (absent : s.inputs.palletPresent = false) :
    exec .declareEmpty s = .next (Responded (DeclaredEmpty s).fixtureReported.close 4 10 .done []) := by
  have test : (s.ixs.state.declares && s.rst.status == .unknown && !s.inputs.palletPresent) = true := by
    rw [unknown, absent]
    rcases state with e | e | e <;> rw [e] <;> rfl
  have declared : s.declareEmpty = (DeclaredEmpty s).fixtureReported.close :=
    congrArg State.close (openFixture_eq (s.setFixture .empty none))
  rw [← responded_eq, ← declared]
  exact if_pos test

/-- R60: what the declaration leaves of the wait for the fixture. -/
theorem declaredEmpty_reported (state : s.ixs.state = .forming ∨ s.ixs.state = .working ∨ s.ixs.state = .seating) :
    (DeclaredEmpty s).fixtureReported = if s.ixs.state = .seating ∧ s.ixs.step = .seat ∧ (Opens s).state = .open
      then { DeclaredEmpty s with ixs := { s.ixs with state := .working, step := .none, lowerExpired := none } }
      else DeclaredEmpty s := by
  have settled : Settled (DeclaredEmpty s) ↔ (Opens s).state = .open := by simp [Settled, DeclaredEmpty]
  split
  · rename_i ends
    exact fixtureReported_ends (.inl ⟨ends.1, ends.2.1⟩) ((fixtureSettled_iff _).2 (settled.2 ends.2.2))
  · rename_i stays
    refine fixtureReported_unawaited (fun e => ?_) fun waits => Bool.eq_false_iff.2 fun ends => ?_
    · rcases state with f | f | f <;> cases f.symm.trans e
    · rcases waits with ⟨seating, step⟩ | ⟨abandoning, -⟩
      · exact stays ⟨seating, step, settled.1 ((fixtureSettled_iff _).1 ends)⟩
      · rcases state with f | f | f <;> cases f.symm.trans abandoning

/-- Settles O16: the declaration opens the fixture, whose report ends the wait in SEATING where it is OPEN at once. -/
theorem declareEmptyTaken : Obligations.DeclareEmptyTaken := by
  intro s state unknown absent
  refine ⟨_, exec_declareEmpty state unknown absent, ?_⟩
  rw [declaredEmpty_reported state]
  exact close_follows _

/-! An opening that ends in OPEN (R47, R53, R60, R106, R107). -/

/-- R91: the lift raised from the state that it stands in. -/
theorem raiseLift_eq (v : Ssv) : v.raiseLift = { v with
    lift := true, liftState := if v.liftState = .up ∨ v.liftState = .rising then v.liftState else .rising } := rfl

/-- R47, R53, R60: the report of OPEN, by what the sequencer waits for. -/
theorem openReported (opened : s.fxs.state = .open) : OpenReported s s.fixtureReported.close := by
  have settled : Settled s ↔ s.rst.status = .empty := by simp [Settled, opened]
  refine ⟨fun state lift => ?_, fun state lift => ?_, fun state lift => ?_, fun waits => ?_, fun state unawaited => ?_⟩
  · have rising : s.ssv.raiseLift = { s.ssv with lift := true, liftState := .rising } := by
      rw [raiseLift_eq, if_neg]
      rcases lift with e | e <;> rw [e] <;> decide
    have moving : ({ s with ssv := s.ssv.raiseLift } : State).liftReported = { s with ssv := s.ssv.raiseLift } :=
      if_neg fun up => by rw [rising] at up; cases up.2
    rw [fixtureReported_lifts state opened, moving, rising]
    exact close_leads _
  · have rising : s.ssv.raiseLift = { s.ssv with lift := true } := by rw [raiseLift_eq, if_pos (.inr lift)]
    have moving : ({ s with ssv := s.ssv.raiseLift } : State).liftReported = { s with ssv := s.ssv.raiseLift } :=
      if_neg fun up => by
        rw [rising] at up
        cases lift.symm.trans up.2
    rw [fixtureReported_lifts state opened, moving, rising]
    exact close_leads _
  · have up : s.ssv.raiseLift = { s.ssv with lift := true } := by rw [raiseLift_eq, if_pos (.inl lift)]
    have lifted : ({ s with ssv := s.ssv.raiseLift } : State).liftReported
        = (({ s with ssv := s.ssv.raiseLift } : State).queueFrame (.lifted s.ixs.index)).enter .liftWait :=
      if_pos ⟨state, by rw [up]; exact lift⟩
    rw [fixtureReported_lifts state opened, lifted, up]
    exact close_leads _
  · rw [fixtureReported_ends waits.2 ((fixtureSettled_iff s).2 (settled.2 waits.1))]
    exact close_leads _
  · have stays : s.fixtureReported = s := fixtureReported_unawaited (fun e => absurd e state)
      fun waits => Bool.eq_false_iff.2 fun ends => unawaited ⟨settled.1 ((fixtureSettled_iff s).1 ends), waits⟩
    rw [stays]
    exact close_leads _

/-- R107: the last locator taken as off in opening step 2. -/
theorem exec_locatorOff_withdrawn (state : s.fxs.state = .opening) (step : s.fxs.openingStep = .two)
    (engaged : s.inputs.locator1 = true ∨ s.inputs.locator2 = true) :
    exec (.locatorOff false false) s = .next ({ s with
      inputs := { s.inputs with locator1 := false, locator2 := false }
      fxs := { s.fxs with state := .open, openingStep := .none, stepTimer := none } } : State).fixtureReported.close := by
  have test : ((s.inputs.locator1 && !false) || (s.inputs.locator2 && !false)) = true := by simpa using engaged
  have free : s.fxs.state.holds = false := by rw [state]; rfl
  refine (if_pos test).trans (congrArg (fun t : State => Host.Outcome.next t.close) ?_)
  unfold State.loseLocators
  rw [free]
  exact (if_neg Bool.false_ne_true).trans (if_pos ⟨state, step, rfl⟩)

/-- R106, R107: the pressure taken as off in opening step 1 with both locators off. -/
theorem exec_clampPressureOff_withdrawn (state : s.fxs.state = .opening) (step : s.fxs.openingStep = .one)
    (pressure : s.inputs.pressure = true) (first : s.inputs.locator1 = false) (second : s.inputs.locator2 = false) :
    exec .clampPressureOff s = .next ({ s with
      inputs := { s.inputs with pressure := false }
      fxs := { s.fxs with state := .open, openingStep := .none, withdraw := true, stepTimer := none } } :
        State).fixtureReported.close := by
  have off : s.fxs.pressureOff { s.inputs with pressure := false } (Config.timeout s.items.releaseStepTimeout)
      = { s.fxs with state := .open, openingStep := .none, withdraw := true, stepTimer := none } := by
    simp [Fxs.pressureOff, state, step, Fxs.openStep2, Fxs.checkOpen, Inputs.bothOff, first, second]
  refine (if_pos pressure).trans (congrArg (fun t : State => Host.Outcome.next t.close) ?_)
  unfold State.losePressure
  dsimp only
  have unsecured : ¬(s.fxs.state = .secured ∧ s.ixs.state.losesPressure = true) := by rw [state]; exact nofun
  rw [off, if_neg unsecured, if_pos ⟨state, rfl⟩]

/-- Settles O45: either end of an opening makes the fixture OPEN and reports it. -/
theorem withdrawnFixtureRaisesLift : Obligations.WithdrawnFixtureRaisesLift := fun _ state =>
  ⟨fun step engaged => ⟨_, exec_locatorOff_withdrawn state step engaged, openReported rfl⟩,
    fun step pressure first second => ⟨_, exec_clampPressureOff_withdrawn state step pressure first second, openReported rfl⟩⟩

end Sys2Proof.FixtureReports
end

section
/-! What raising a cause of level 6 or 7 does to the transmit queue, the drive and the announced pair (R50, R94, R149, R152), and the safety
inputs that raise one (R44, R96, R150). -/

set_option Elab.async false

namespace Sys2Proof.SafetyCauses

open Sys2Proof.Machine Sys2Proof.Safety Sys2Proof.Claims Sys2Proof.SectionLine Sys2Proof.StepTime Sys2Proof.MotionProfiles

variable {s t : State} {c : Cause}

/-! STOP in the transmit queue (R50). -/

/-- R50: a STOP of the station's index stands in the transmit queue. -/
def StopWaits (s : State) : Prop := ∃ f ∈ s.lpt.queue, ∃ k lv : Nat, f.payload = .stop s.ixs.index k lv

theorem index_of_holdFrame (h : HoldFrame s t) : t.ixs.index = s.ixs.index := by
  rcases h.ixs with e | ⟨-, e⟩ <;> rw [e]

/-- R9, R50: a STOP leaves the queue for another STOP only. -/
theorem stopWaits_stable : HoldStable StopWaits where
  announce s := fun ⟨f, queued, k, lv, payload⟩ => by
    obtain ⟨-, -, stop, -⟩ := announce_effects s
    exact ⟨f, (stop f (by rw [payload]; rfl)).2 queued, k, lv, by rw [payload, index_of_holdFrame (announce_frame s)]⟩
  stop s n _ := ⟨⟨s.lpt.nextId, s.stopPayload n⟩, mem_insertFrame_self _ _, n, _, rfl⟩
  rest := fun ⟨f, queued, k, lv, payload⟩ lpt ixs _ _ => ⟨f, by rw [lpt]; exact queued, k, lv, by rw [ixs]; exact payload⟩

/-- R50: a cause of level 6 or 7 that comes up in RELEASING, LIFT_WAIT, MOVING or RESUME_WAIT queues STOP. -/
theorem stopWaits_raise (taken : ¬(s.offline ∨ s.har.level c = 0 ∨ s.har.isPending c)) (high : 6 ≤ s.har.level c)
    (state : s.ixs.state.queuesStop = true) : StopWaits (s.raise c) := by
  let u : State := { s with har := s.har.setPending c true }.announce
  have ixs : u.ixs = s.ixs := by
    rcases (announce_frame { s with har := s.har.setPending c true }).ixs with e | ⟨ready, -⟩
    · exact e
    · rw [show s.ixs.state = .ready from ready] at state
      cases state
  have queued : StopWaits (u.queueStop c.number) := ⟨⟨u.lpt.nextId, u.stopPayload c.number⟩, mem_insertFrame_self _ _, _, _, rfl⟩
  have dropped : StopWaits (u.queueStop c.number).dropDrive :=
    stopWaits_stable.rest queued (by simp) (by simp) (by simp) (by simp)
  rw [raise_taken s c taken]
  dsimp only
  have stops : 6 ≤ s.har.level c ∧ u.ixs.state.queuesStop = true := ⟨high, by rw [ixs]; exact state⟩
  rw [if_pos stops]
  split
  · exact dropped
  · exact queued

theorem queuesStop_of_mem (h : s.ixs.state ∈ [SeqState.releasing, .liftWait, .moving, .resumeWait]) :
    s.ixs.state.queuesStop = true := by
  simp only [List.mem_cons, List.not_mem_nil, or_false] at h
  rcases h with e | e | e | e <;> rw [e] <;> rfl

/-! A latched cause of level 7 that comes up (R94, R149, R152). -/

/-- R94: a cause of level 7 that comes up holds the shuttle HALTED. -/
theorem raise_heldBy (every : EveryCause s) (seven : s.har.level c = 7) (on : s.offline = false) (idle : s.har.isPending c = false) :
    HeldBy c (s.raise c) where
  every := (raise_same s c).length.trans every
  seven := ((raise_same s c).level c).trans seven
  pending := raise_pending s c on (by omega) every
  dropped := (raise_effects s c every).dropped c seven (raise_pending s c on (by omega) every) fun p => by
    rw [idle] at p
    cases p

theorem raise_isTaken (seven : s.har.level c = 7) (on : s.offline = false) (idle : s.har.isPending c = false) :
    ¬(s.offline ∨ s.har.level c = 0 ∨ s.har.isPending c) := by
  rw [on, seven, idle]
  rintro (⟨⟨⟩⟩ | ⟨⟨⟩⟩ | ⟨⟨⟩⟩)

/-- R152: the announced level at the end of the command. -/
theorem raise_close_announcedLevel (levels : LevelsLegal s) (latched : c.latched = true) (seven : s.har.level c = 7)
    (on : s.offline = false) (idle : s.har.isPending c = false) : (s.raise c).close.har.announcedLevel = 7 := by
  have held := raise_heldBy levels.1 seven on idle
  have closed := close_same (s.raise c)
  exact announcedLevel_held (levelsLegal_same closed (levelsLegal_same (raise_same s c) levels))
    ((closed.level c).trans held.seven) ((closed.pending c latched).trans held.pending)
    ((close_follows (s.raise c)).announced held.every (raise_announces (raise_isTaken seven on idle)))

/-- R94: what the shuttle that a cause of level 7 finds moving or at rest is halted from. -/
theorem raise_close_halts (every : EveryCause s) (latched : c.latched = true) (seven : s.har.level c = 7) (on : s.offline = false)
    (idle : s.har.isPending c = false) (free : s.ssv.shuttle ≠ .halted) :
    (s.raise c).close.ssv = HaltedDrive s.ssv ∧ (s.raise c).close.pgn = s.pgn.halt := by
  obtain ⟨closedSsv, closedPgn⟩ := close_held latched (raise_heldBy every seven on idle)
  obtain ⟨ssv, pgn⟩ := raise_drive (raise_isTaken seven on idle)
  obtain ⟨halted, profile⟩ := dropDrive_free free
  rw [if_pos seven] at ssv pgn
  exact ⟨closedSsv.trans (ssv.trans halted), closedPgn.trans (pgn.trans profile)⟩

/-! The safety inputs (R44, R96, R150, R178). -/

/-- R94, R150: everything that EMERGENCY or a drive fault brings about in `u`. -/
theorem raise_floorSeven (levels : LevelsLegal s) (latched : c.latched = true) (floor : c.floor = 7) :
    (s.ixs.state = .offline → Follows [] s (s.raise c).close)
      ∧ (s.ixs.state ≠ .offline → s.har.isPending c = false → Follows [c] s (s.raise c).close
          ∧ (s.raise c).close.har.isPending c = true ∧ (s.raise c).close.ssv.drive = false
          ∧ (s.raise c).close.ssv.shuttle = .halted ∧ (s.raise c).close.har.announcedLevel = 7
          ∧ (s.ssv.shuttle ≠ .halted → (s.raise c).close.ssv.haltedFrom = some s.ssv.shuttle)
          ∧ (s.ixs.state ∈ [SeqState.releasing, .liftWait, .moving, .resumeWait] →
              ∃ f ∈ (s.raise c).close.lpt.queue, f.payload.kind = .stop)) := by
  have seven : s.har.level c = 7 := Nat.le_antisymm (levels.2 c).2 (floor ▸ (levels.2 c).1)
  refine ⟨fun off => ?_, fun on idle => ?_⟩
  · rw [raise_ignored s c (.inl (beq_iff_eq.2 off))]
    exact close_follows s
  · have on' : s.offline = false := beq_eq_false_iff_ne.2 on
    have follows := raise_close_follows s c latched
    have pending := raise_close_pending s c on (by omega) levels.1 latched
    obtain ⟨drive, shuttle⟩ := follows.dropped levels.1 c seven idle pending
    refine ⟨follows, pending, drive, shuttle, raise_close_announcedLevel levels latched seven on' idle, fun free => ?_, fun state => ?_⟩
    · rw [(raise_close_halts levels.1 latched seven on' idle free).1]
      rfl
    · obtain ⟨f, queued, k, lv, payload⟩ := stopWaits_stable.close
        (stopWaits_raise (raise_isTaken seven on' idle) (by omega) (queuesStop_of_mem state))
      exact ⟨f, queued, by rw [payload]; rfl⟩

/-- R44: MACH_CLEAR taken as off. -/
def Intruded (s : State) : State := { s with inputs := { s.inputs with machClear := false } }

theorem intrudes_iff (x : SeqState) : x.intrudes = true ↔ x ∉ [SeqState.offline, .forming, .working] := by
  cases x <;> simp [SeqState.intrudes]

theorem exec_machClearDrop_left (clear : s.inputs.machClear = true) (state : s.ixs.state ∈ [SeqState.offline, .forming, .working]) :
    exec .machClearDrop s = .next (Intruded s) :=
  (if_pos clear).trans (if_neg fun e => (intrudes_iff s.ixs.state).1 e state)

theorem exec_machClearDrop_raises (clear : s.inputs.machClear = true)
    (state : s.ixs.state ∉ [SeqState.offline, .forming, .working]) :
    exec .machClearDrop s = .next ((Intruded s).raise .machIntrusion).close :=
  (if_pos clear).trans (if_pos ((intrudes_iff s.ixs.state).2 state))

/-- Settles O54: an input raises its cause (`raise_floorSeven`); MACH_INTRUSION, of level 6 at least, has STOP queued. -/
theorem safetyInputs : Obligations.SafetyInputs := by
  intro s levels raised
  refine ⟨rfl, rfl, rfl, fun clear => ⟨exec_machClearDrop_left clear, fun state => ?_⟩, fun off => ?_, fun off => ?_⟩
  · have on : s.ixs.state ≠ .offline := fun e => state (by rw [e]; decide)
    have floor : 6 ≤ s.har.level .machIntrusion := (levels.2 .machIntrusion).1
    refine ⟨_, exec_machClearDrop_raises clear state, raise_close_follows _ _ rfl,
      raise_close_pending (Intruded s) _ on (by change 1 ≤ s.har.level .machIntrusion; omega) levels.1 rfl, fun moves idle => ?_⟩
    have taken : ¬((Intruded s).offline ∨ (Intruded s).har.level .machIntrusion = 0 ∨ (Intruded s).har.isPending .machIntrusion) := by
      rintro (e | e | e)
      · exact on (beq_iff_eq.1 e)
      · have e : s.har.level .machIntrusion = 0 := e
        omega
      · cases idle.symm.trans e
    obtain ⟨f, queued, k, lv, payload⟩ := stopWaits_stable.close
      (stopWaits_raise taken floor (queuesStop_of_mem (s := Intruded s) moves))
    exact ⟨f, queued, by rw [payload]; rfl⟩
  · let u : State := { s with inputs := { s.inputs with emergency := true } }
    have run : exec .emergencyOn s = .next (u.raise .emergency).close := if_neg (by rw [off]; exact nofun)
    exact ⟨_, run, raise_floorSeven (s := u) (c := .emergency) levels rfl rfl⟩
  · let u : State := { s with inputs := { s.inputs with driveFault := true } }
    have run : exec .driveFaultOn s = .next (u.raise .driveFault).close := if_neg (by rw [off]; exact nofun)
    exact ⟨_, run, raise_floorSeven (s := u) (c := .driveFault) levels rfl rfl⟩

end Sys2Proof.SafetyCauses
end

section
/-! JOIN at its observation (R38, R60, R154, R168 to R170). -/

set_option Elab.async false

namespace Sys2Proof.JoinFrames

open Sys2Proof.Machine Sys2Proof.Safety Sys2Proof.Claims Sys2Proof.SectionLine Sys2Proof.MotionProfiles Sys2Proof.ColumnFrames

variable {s w : State} {h : Header} {f : JoinFields} {m : Nat} {own : Bool} {clock : FrameClock}

/-! What JOIN writes (R154, R169). -/

theorem joinMatches_iff (s : State) (f : JoinFields) : s.joinMatches f = true ↔ f.pitch = s.pitch ∧ f.vmax = s.items.vmax
    ∧ f.accel = s.items.accel ∧ f.stopDecel = s.items.stopDecel ∧ f.members = s.memberCount := by
  simp only [State.joinMatches, Bool.and_eq_true, beq_iff_eq, and_assoc]

theorem writeJoin_eq (s : State) (m : Nat) (own : Bool) (f : JoinFields) :
    (Arrived s m own).writeJoin m f = JoinWritten s m own f := by
  have flag := if_congr (joinMatches_iff s f) (rfl : MatchFlag.yes = .yes) (rfl : MatchFlag.no = .no)
  have same : (Arrived s m own).joinMatches f = s.joinMatches f := rfl
  unfold State.writeJoin JoinWritten
  rw [same, flag]
  rfl

/-! A forming JOIN (R38, R168). -/

/-- R38, R168: what a forming JOIN leads to, before any wait that it ends: the READY marks cleared in the states of R38, READY queued again,
and JOIN in answer. -/
def Answered (w : State) : State :=
  let l := if w.ixs.state = .ready then w.lpt.enqueue w.readyPayload else w.lpt
  { w with
    peers := if w.ixs.state ∈ [SeqState.forming, .working, .ready, .abandoning, .lowering, .seating]
      then w.peers.map fun p => { p with ready := false } else w.peers
    lpt := if w.ixs.state = .forming then l else l.enqueue w.joinPayload }

theorem clearsReady_iff (x : SeqState) : x.clearsReady = true
    ↔ x ∈ [SeqState.forming, .working, .ready, .abandoning, .lowering, .seating] := by
  cases x <;> simp [SeqState.clearsReady]

theorem clearAtForming_eq (w : State) : w.clearAtForming = { w with
    peers := if w.ixs.state ∈ [SeqState.forming, .working, .ready, .abandoning, .lowering, .seating]
      then w.peers.map fun p => { p with ready := false } else w.peers
    lpt := if w.ixs.state = .ready then w.lpt.enqueue w.readyPayload else w.lpt } := by
  unfold State.clearAtForming
  simp only [clearsReady_iff]
  have queued (u : State) (ixs : u.ixs = w.ixs) (rst : u.rst = w.rst) (lpt : u.lpt = w.lpt) :
      (if u.ixs.state = .ready then u.queueFrame u.readyPayload else u)
        = { u with lpt := if w.ixs.state = .ready then w.lpt.enqueue w.readyPayload else w.lpt } := by
    have payload : u.readyPayload = w.readyPayload := by rw [State.readyPayload, ixs, rst]; rfl
    by_cases ready : w.ixs.state = .ready
    · rw [if_pos ready, if_pos (by rw [ixs]; exact ready), payload, State.queueFrame, lpt]
    · rw [if_neg ready, if_neg (by rw [ixs]; exact ready), ← lpt]
  by_cases clears : w.ixs.state ∈ [SeqState.forming, .working, .ready, .abandoning, .lowering, .seating]
  · rw [if_pos clears, if_pos clears]
    exact queued w.clearReady rfl rfl rfl
  · rw [if_neg clears, if_neg clears]
    exact queued w rfl rfl rfl

theorem answered_eq (on : w.ixs.state ≠ .offline) : w.clearAtForming.answerJoin = Answered w := by
  rw [clearAtForming_eq]
  by_cases forming : w.ixs.state = .forming
  · unfold Answered
    dsimp only
    rw [if_pos forming]
    exact if_pos (.inr forming)
  · unfold Answered
    dsimp only
    rw [if_neg forming]
    exact if_neg (not_or.2 ⟨on, forming⟩)

/-- R60, R168: a forming JOIN, with the wait in SEATING that it may end. -/
theorem deliverJoin_forming (on : s.ixs.state ≠ .offline) (forming : f.forming = true) :
    (Arrived s m own).deliver ⟨m, own, clock⟩ ⟨h, .join f⟩ = (Answered (JoinWritten s m own f)).endUpstreamWait m := by
  have on : (JoinWritten s m own f).ixs.state ≠ .offline := on
  change (Arrived s m own).deliverJoin ⟨m, own, clock⟩ f = _
  rw [State.deliverJoin, writeJoin_eq, ← answered_eq on]
  exact if_pos forming

/-! A JOIN that is not forming (R170). -/

theorem deliverJoin_formed (formed : f.forming = false) :
    (Arrived s m own).deliver ⟨m, own, clock⟩ ⟨h, .join f⟩ = (JoinWritten s m own f).adoptIndex f.index := by
  change (Arrived s m own).deliverJoin ⟨m, own, clock⟩ f = _
  rw [State.deliverJoin, writeJoin_eq]
  exact if_neg (by rw [formed]; exact nofun)

theorem adoptIndex_forming (state : w.ixs.state = .forming) (i : IndexNo) : w.adoptIndex i = { w with
    ixs := { w.ixs with index := i }
    peers := if i = w.ixs.index then w.peers else w.peers.map fun p => { p with ready := false } } := by
  unfold State.adoptIndex
  rw [if_pos state]
  dsimp only
  split <;> rfl

/-! The frames in the queue to the end of the command (R153). -/

/-- R153, R168: the JOIN in answer carries the pair announced at the end of the command, its forming flag clear. -/
theorem answered_join (joined : w.ixs.state ≠ .forming) :
    ∃ q ∈ (Answered w).close.lpt.queue, q.payload = .join
      { pitch := w.pitch, vmax := w.items.vmax, accel := w.items.accel, stopDecel := w.items.stopDecel, members := w.memberCount
        index := w.ixs.index, forming := false, level := (Answered w).close.har.announcedLevel
        cause := (Answered w).close.har.announcedCause } := by
  have follows := close_follows (Answered w)
  obtain ⟨q, queued, payload⟩ := follows.join (by
    unfold Answered
    dsimp only
    rw [if_neg joined]
    exact ⟨_, mem_insertFrame_self _ _, rfl⟩)
  have state : (Answered w).close.ixs.state ≠ .forming ∧ (Answered w).close.ixs.index = w.ixs.index := by
    rcases follows.ixs with e | ⟨-, e⟩ <;> rw [e]
    · exact ⟨joined, rfl⟩
    · exact ⟨nofun, rfl⟩
  have forming : ((Answered w).close.ixs.state == SeqState.forming) = false := beq_eq_false_iff_ne.2 state.1
  refine ⟨q, queued, payload.trans ?_⟩
  unfold State.joinPayload State.pitch State.memberCount State.memberList
  rw [follows.items, forming, state.2]
  rfl

/-- R38, R43: a station in READY whose announced level stays at 3 or below keeps the READY queued again. -/
theorem answered_ready (ready : w.ixs.state = .ready) (every : w.har.causes.length = 24) (pair : PairAnnounced w)
    (low : w.har.announcedLevel ≤ 3) (still : (Answered w).close.har.announcedLevel ≤ 3) :
    (Answered w).close.ixs.state = .ready ∧ ∃ q ∈ (Answered w).close.lpt.queue, q.payload = w.readyPayload := by
  obtain ⟨ixs, frames⟩ := (close_follows (Answered w)).ready every pair low still
  have kind : w.readyPayload.kind = .ready := by
    unfold State.readyPayload
    split <;> rfl
  have queued : ⟨w.lpt.nextId, w.readyPayload⟩ ∈ (Answered w).lpt.queue := by
    have other : w.readyPayload.kind ≠ w.joinPayload.kind := by rw [kind]; exact nofun
    unfold Answered
    dsimp only
    rw [if_pos ready, if_neg (by rw [ready]; exact nofun)]
    exact (mem_enqueue_other (g := ⟨w.lpt.nextId, w.readyPayload⟩) other).2 (mem_insertFrame_self _ _)
  exact ⟨by rw [ixs]; exact ready, _, (frames ⟨w.lpt.nextId, w.readyPayload⟩ kind).2 queued, rfl⟩

/-- Settles O25: a JOIN that is not forming by `adoptIndex_forming`, a forming one by what it has queued (`Answered`). -/
theorem joinObserved : Obligations.JoinObserved := by
  intro s h f m own clock arrives w clear l
  have on : s.ixs.state ≠ .offline := arrives.2.2.2.1
  refine ⟨_, congrArg Host.Outcome.next (observe_arrives arrives), fun formed joined => ?_, fun formed state => ?_,
    fun forming unawaited => ?_⟩
  · rw [deliverJoin_formed formed, State.adoptIndex, if_neg (c := w.ixs.state = .forming) joined]
    exact close_leads w
  · rw [deliverJoin_formed formed, adoptIndex_forming (w := w) state]
    exact close_leads _
  · rw [deliverJoin_forming on forming, endUpstreamWait_other (s := Answered w) unawaited]
    exact ⟨close_leads (Answered w), fun joined => answered_join (w := w) joined,
      fun ready every pair low still => answered_ready (w := w) ready every pair low still⟩

end Sys2Proof.JoinFrames
end

section
/-! READY at its observation, short of the barrier (R37, R138 to R142, Table 8-2). -/

set_option Elab.async false

namespace Sys2Proof.ReadyFrames

open Sys2Proof.Machine Sys2Proof.Safety Sys2Proof.Claims Sys2Proof.SectionLine Sys2Proof.StepTime

variable {s w : State} {h : Header} {f : ReadyFields} {m : Nat} {own : Bool} {clock : FrameClock} {old : Slot}

/-! The image (R140, R142, Table 8-2). -/

/-- R142: what a READY of this pallet leaves in the slots of the other members. -/
def GivenUp (f : ReadyFields) : Slot → Slot := if f.status = .held then WithoutId f.pallet else id

theorem dropId_eq (i : Nat) : dropId i = WithoutId i := by
  funext x
  cases x <;> rfl

theorem write_slots (im : Sim) (m : Nat) (f : ReadyFields) :
    (im.write m (slotOf f)).slots = updateAt (fun _ => slotOf f) m (im.slots.map (GivenUp f))
      ∧ (im.write m (slotOf f)).exitSlot = GivenUp f im.exitSlot := by
  cases e : f.status <;> simp [Sim.write, slotOf, GivenUp, e, dropId_eq]

/-- R140: the member's own slot. -/
theorem write_own (at_m : w.sim.slots[m]? = some old) : (w.sim.write m (slotOf f)).slots[m]? = some (slotOf f) := by
  rw [(write_slots w.sim m f).1, updateAt_self, List.getElem?_map, at_m]
  rfl

/-- R142: the slots of the other members. -/
theorem write_others (im : Sim) {i : Nat} (other : i ≠ m) :
    (im.write m (slotOf f)).slots[i]? = im.slots[i]?.map (GivenUp f) := by
  rw [(write_slots im m f).1, updateAt_other _ other, List.getElem?_map]

theorem slotMismatch_iff (m : Nat) (x : Slot) (f : ReadyFields) : slotMismatch m x f = true ↔ Contradicts m f x := by
  unfold slotMismatch Contradicts
  cases x <;> cases f.status <;> simp

/-! The frame (R37, R138). -/

/-- R37, R140: the mark of the member set and its slot written. -/
def ReadyTaken (s : State) (m : Nat) (own : Bool) (f : ReadyFields) : State :=
  { Arrived s m own with
    peers := updateAt (fun p => { p with ready := true }) m (Arrived s m own).peers
    sim := s.sim.write m (slotOf f) }

/-- R139, R141: the cause of a contradiction. -/
def Compared (s : State) (m : Nat) (own : Bool) (f : ReadyFields) : State :=
  if slotMismatch m (s.sim.slots.getD m .unknown) f then (ReadyTaken s m own f).raise .imageMismatch else ReadyTaken s m own f

theorem deliverReady_eq (index : f.index = s.ixs.index) :
    (Arrived s m own).deliver ⟨m, own, clock⟩ ⟨h, .ready f⟩ = (Compared s m own f).checkReadyBarrier := if_pos index

theorem compared_contradicts (at_m : s.sim.slots[m]? = some old) (contradicts : Contradicts m f old) :
    Compared s m own f = (ReadyTaken s m own f).raise .imageMismatch := by
  have test : slotMismatch m (s.sim.slots.getD m .unknown) f = true := by
    rw [List.getD_eq_getElem?_getD, at_m]
    exact (slotMismatch_iff m old f).2 contradicts
  exact if_pos test

theorem compared_agrees (at_m : s.sim.slots[m]? = some old) (agrees : ¬Contradicts m f old) :
    Compared s m own f = ReadyTaken s m own f := by
  have test : ¬slotMismatch m (s.sim.slots.getD m .unknown) f = true := by
    rw [List.getD_eq_getElem?_getD, at_m]
    exact mt (slotMismatch_iff m old f).1 agrees
  exact if_neg test

theorem compared_frame (s : State) (m : Nat) (own : Bool) (f : ReadyFields) :
    HoldFrame (ReadyTaken s m own f) (Compared s m own f) := by
  unfold Compared
  split
  · exact raise_frame _ _
  · exact .rfl' _

/-! The barrier (R46). -/

/-- R46: every member's mark is set with that of this member. -/
def OthersMarked (s : State) (m : Nat) (mark : Peer → Bool) : Prop :=
  ∀ (i : Nat) (p : Peer), s.peers[i]? = some p → i ≠ m → mark p = true

/-- R37, R39, R40: every mark is set once that of a member has been, where the others' are. -/
theorem all_marked_iff {mark : Peer → Bool} {set heard : Peer → Peer} (own : ∀ p, mark (set p) = true)
    (m : Nat) (l : List Peer) :
    (updateAt set m (updateAt heard m l)).all mark = true ↔ ∀ (i : Nat) (p : Peer), l[i]? = some p → i ≠ m → mark p = true := by
  rw [updateAt_updateAt, List.all_eq_true]
  refine ⟨fun all i p at_i other => ?_, fun others x i => ?_⟩
  · refine all p (List.mem_of_getElem? (i := i) ?_)
    rw [updateAt_other _ other]
    exact at_i
  · obtain ⟨j, p, at_j, ⟨-, e⟩ | ⟨other, e⟩⟩ := mem_updateAt i
    · rw [e]
      exact own _
    · rw [e]
      exact others j p at_j other

/-- R46: the station is in READY or WORKING. -/
def Waits (s : State) : Prop := s.ixs.state = .ready ∨ s.ixs.state = .working

theorem waits_of_holdFrame (frame : HoldFrame s w) : Waits w ↔ Waits s := by
  unfold Waits
  rcases frame.ixs with e | ⟨ready, e⟩ <;> rw [e]
  simp [ready]

theorem barrier_iff (s : State) (m : Nat) (own : Bool) (f : ReadyFields) :
    ((Compared s m own f).ixs.state = .ready ∨ (Compared s m own f).ixs.state = .working)
      ∧ (Compared s m own f).allMarked Peer.ready = true ↔ Waits s ∧ OthersMarked s m Peer.ready := by
  have frame := compared_frame s m own f
  refine and_congr (waits_of_holdFrame (s := ReadyTaken s m own f) frame) ?_
  rw [State.allMarked, frame.peers]
  exact all_marked_iff (fun _ => rfl) m s.peers

/-- Settles O26: the image by `write_slots`, its contradiction by `slotMismatch_iff`, and no barrier, for one mark is clear yet. -/
theorem readyMarksAndWritesImage : Obligations.ReadyMarksAndWritesImage := by
  intro s h f m own clock old arrives at_m a g new
  have on : s.ixs.state ≠ .offline := arrives.2.2.2.1
  refine ⟨_, congrArg Host.Outcome.next (observe_arrives arrives), fun other => ?_, fun index short => ?_⟩
  · rw [show a.deliver ⟨m, own, clock⟩ ⟨h, .ready f⟩ = a from if_neg other]
    exact close_follows a
  · rw [deliverReady_eq index, State.checkReadyBarrier, if_neg (mt (barrier_iff s m own f).1 short)]
    have sim : (Compared s m own f).close.sim = s.sim.write m (slotOf f) :=
      (close_frame _).sim.trans (compared_frame s m own f).sim
    rw [sim]
    refine ⟨?_, write_own at_m, fun i other => write_others s.sim other, (write_slots s.sim m f).2, fun levels contradicts => ?_,
      fun agrees => ?_⟩
    · by_cases contradicts : Contradicts m f old
      · rw [compared_contradicts at_m contradicts]
        exact raise_close_follows _ _ rfl
      · rw [compared_agrees at_m contradicts]
        exact close_follows_except _ _ rfl
    · rw [compared_contradicts at_m contradicts]
      exact raise_close_pending (ReadyTaken s m own f) _ on (level_pos (s := s) levels (by decide)) levels.1 rfl
    · rw [compared_agrees at_m agrees]
      exact (close_same (ReadyTaken s m own f)).pending _ rfl

end Sys2Proof.ReadyFrames
end

section
/-! RESUME, taken (R63, R65, Table 5-4). -/

set_option Elab.async false

namespace Sys2Proof.ResumeRequest

open Sys2Proof.Machine Sys2Proof.Safety Sys2Proof.Claims Sys2Proof.SectionLine Sys2Proof.StepTime Sys2Proof.MotionProfiles

variable {s t : State} {pos : Nat}

/-- R148: the self-clearing causes have settled in a state in which they are as they were and judged by the same. -/
theorem settled_congr (settled : CausesSettled s) (har : t.har = s.har) (offline : t.offline = s.offline)
    (timer : t.lpt.foreignTimer = s.lpt.foreignTimer := by rfl) (items : t.items = s.items := by rfl)
    (status : t.rst.status = s.rst.status := by rfl) (exit : t.rst.exitQueue = s.rst.exitQueue := by rfl)
    (ltu : t.ltu = s.ltu := by rfl) (peers : t.peers = s.peers := by rfl) : CausesSettled t := fun c self => by
  rw [condition_congr offline timer items status exit ltu peers self, har]
  exact settled c self

/-- R148: two states outside OFFLINE. -/
theorem offline_congr (was : s.ixs.state ≠ .offline) (on : t.ixs.state ≠ .offline) : t.offline = s.offline :=
  (beq_eq_false_iff_ne.2 on).trans (beq_eq_false_iff_ne.2 was).symm

/-- R148: where the causes have settled, the end of a command leaves the drive and the profile. -/
theorem close_settled_drive (settled : CausesSettled t) : t.close.ssv = t.ssv ∧ t.close.pgn = t.pgn := by
  rw [close_settled t settled]
  exact ⟨rfl, rfl⟩

/-- R63, Table 5-4: the drive raised for a RESUME, a HALTED shuttle in HALTED_MID. -/
def Driven (v : Ssv) : Ssv :=
  { v with drive := true, shuttle := if v.shuttle = .halted then .haltedMid else v.shuttle
           haltedFrom := if v.shuttle = .halted then none else v.haltedFrom }

theorem resumeDrive_eq (s : State) : s.resumeDrive = { s with ssv := Driven s.ssv } := by
  unfold State.resumeDrive Driven
  by_cases halted : s.ssv.shuttle = .halted
  · rw [if_pos halted, if_pos halted, if_pos halted]
    rfl
  · rw [if_neg halted, if_neg halted, if_neg halted]

theorem driven_free (v : Ssv) : (Driven v).shuttle ≠ .halted := by
  unfold Driven
  dsimp only
  split
  · exact nofun
  · assumption

/-- R63: in RESUME_WAIT, the drive raised. -/
def Waiting (s : State) : State := { s with ssv := Driven s.ssv, ixs := { s.ixs with state := .resumeWait } }

/-- R63.3: RESUME queued at once. -/
def OfferedAtOnce (s : State) (pos : Nat) : State :=
  { s with ssv := Driven s.ssv, ixs := { s.ixs with state := .resumeWait, resumeStep := .none }
           lpt := s.lpt.enqueue (.resume s.ixs.index (pos / 256)) }

/-- R63.4: a reposition to the stop setpoint runs first. -/
def Repositions (s : State) (pos : Nat) : State :=
  { s with
    ssv := { Driven s.ssv with shuttle := .repositioning, repositionTarget := some ((pos / 256 : Nat) : Int)
                               repositionUse := some .toStop }
    ixs := { s.ixs with state := .resumeWait, resumeStep := .repositioning }
    pgn := s.pgn.prepareMove .reposition s.ssv.encoder.toInt ((pos / 256 : Nat) : Int) s.items.homingSpeed s.items.accel
      s.ltu.lineTime }

theorem exec_resume_taken (stopped : s.ixs.state = .stopped) (free : s.har.stopPending = false) :
    exec .resume s = .next (Responded (Waiting s).resumeOffer.close 4 16 .done []) := by
  have waiting : s.resumeDrive.enter .resumeWait = Waiting s := by rw [resumeDrive_eq]; rfl
  rw [← responded_eq, ← waiting]
  exact (if_pos stopped).trans (if_neg (by rw [free]; exact nofun))

theorem atStopSetpoint_iff (stop : s.pgn.stopPosition = some pos) : (Waiting s).atStopSetpoint = true
    ↔ (s.ssv.encoder.toInt - ((pos / 256 : Nat) : Int)).natAbs ≤ s.items.inposWindow := by
  unfold State.atStopSetpoint Pgn.stopSetpoint
  rw [show (Waiting s).pgn.stopPosition = some pos from stop]
  exact decide_eq_true_iff

theorem stopSetpoint_getD (stop : s.pgn.stopPosition = some pos) : s.pgn.stopSetpoint.getD 0 = pos / 256 := by
  rw [Pgn.stopSetpoint, stop]
  rfl

theorem resumeOffer_near (stop : s.pgn.stopPosition = some pos)
    (near : (s.ssv.encoder.toInt - ((pos / 256 : Nat) : Int)).natAbs ≤ s.items.inposWindow) :
    (Waiting s).resumeOffer = OfferedAtOnce s pos := by
  have setpoint : (Waiting s).pgn.stopSetpoint.getD 0 = pos / 256 := stopSetpoint_getD stop
  rw [State.resumeOffer, if_pos ((atStopSetpoint_iff stop).2 near), State.offerResume, setpoint]
  rfl

theorem resumeOffer_far (stop : s.pgn.stopPosition = some pos)
    (far : s.items.inposWindow < (s.ssv.encoder.toInt - ((pos / 256 : Nat) : Int)).natAbs) :
    (Waiting s).resumeOffer = Repositions s pos := by
  let w : State := { Waiting s with ixs := { (Waiting s).ixs with resumeStep := .repositioning } }
  have setpoint : (w.moveShuttle .repositioning).pgn.stopSetpoint.getD 0 = pos / 256 := by
    rw [moveShuttle_eq (s := w) .repositioning (driven_free s.ssv)]
    exact stopSetpoint_getD stop
  rw [State.resumeOffer, if_neg (mt (atStopSetpoint_iff stop).1 (Nat.not_le.2 far))]
  change (w.moveShuttle .repositioning).reposition .toStop ((w.moveShuttle .repositioning).pgn.stopSetpoint.getD 0 : Nat) = _
  rw [setpoint, moveShuttle_eq (s := w) .repositioning (driven_free s.ssv)]
  rfl

/-- Settles O18: RESUME queued at once by `resumeOffer_near`, a reposition first by `resumeOffer_far`; no self-clearing cause is judged
by what they change. -/
theorem resumeTaken : Obligations.ResumeTaken := by
  intro s pos stopped free shuttle stop sp v
  have was : s.ixs.state ≠ .offline := by rw [stopped]; exact nofun
  refine ⟨_, exec_resume_taken stopped free, fun near => ?_, fun far => ?_⟩
  · rw [resumeOffer_near stop near]
    exact ⟨close_leads (OfferedAtOnce s pos), fun settled =>
      close_settled_drive (settled_congr (t := OfferedAtOnce s pos) settled rfl (offline_congr was nofun))⟩
  · rw [resumeOffer_far stop far]
    exact ⟨close_leads (Repositions s pos), fun settled =>
      close_settled_drive (settled_congr (t := Repositions s pos) settled rfl (offline_congr was nofun))⟩

end Sys2Proof.ResumeRequest
end

section
/-! SETPOINT_WORD_REPEAT and SETPOINT_WORD_END (R58, R63, R90, R93, R94, R97, R98). -/

set_option Elab.async false

namespace Sys2Proof.SetpointWords

open Sys2Proof.Machine Sys2Proof.Safety Sys2Proof.Claims Sys2Proof.SectionLine Sys2Proof.StepTime Sys2Proof.MotionProfiles
  Sys2Proof.SafetyCauses

variable {s : State} {i : Instr}

theorem exec_word (due : (i = .setpointWordRepeat ∧ 40 ≤ s.ssv.wordAge) ∨ (i = .setpointWordEnd ∧ s.ssv.wordWaiting = true)) :
    exec i s = .next s.startWord.close := by
  rcases due with ⟨rfl, free⟩ | ⟨rfl, waits⟩
  · exact if_pos ((MotionProfiles.lineFree_iff s).2 free)
  · exact if_pos waits

/-- R97: a word that finds the shuttle where it is to be. -/
theorem startWord_follows (follows : Follows97 s s.pgn.setpoint) : s.startWord = (WordSent s s.pgn).reportWord :=
  congrArg State.reportWord (sendWord_follows (s := s) (g := s.pgn) follows)

/-- R94, R97: a word that raises FOLLOWING_ERROR reports nothing. -/
theorem startWord_exceeds (far : ¬Follows97 s s.pgn.setpoint) (levels : LevelsLegal s) (on : s.offline = false)
    (idle : s.har.isPending .followingError = false) : s.startWord = (WordSent s s.pgn).raise .followingError := by
  have dropped := (raise_heldBy (s := WordSent s s.pgn) levels.1 (followingError_seven levels) on idle).dropped
  rw [State.startWord, sendWord_exceeds (s := s) (g := s.pgn) far, reportWord_dropped dropped.1]

/-- Settles O52: the word by `sendWord_follows` and `sendWord_exceeds`, its reports by `reportWord_reports`, its halt by the level of
FOLLOWING_ERROR. -/
theorem setpointWordStarted : Obligations.SetpointWordStarted := by
  intro s i due v
  refine ⟨_, exec_word due, fun follows => ?_, fun far levels on idle => ?_⟩
  · rw [startWord_follows follows]
    exact reportWord_reports (WordSent s s.pgn)
  · have seven : (WordSent s s.pgn).har.level .followingError = 7 := followingError_seven levels
    have on' : (WordSent s s.pgn).offline = false := beq_eq_false_iff_ne.2 on
    obtain ⟨follows, pending, drive, shuttle, -, -, -⟩ :=
      (raise_floorSeven (s := WordSent s s.pgn) (c := .followingError) levels rfl rfl).2 on idle
    rw [startWord_exceeds far levels on' idle]
    refine ⟨follows, pending, drive, shuttle, by rw [follows.ssv]; rfl, fun free => ?_⟩
    rw [(raise_close_halts (s := WordSent s s.pgn) levels.1 rfl seven on' idle free).1]
    rfl

end Sys2Proof.SetpointWords
end

section
/-! A period of a stop ramp (R62, R78 to R80, R87, R93 to R95, R97, R99). -/

set_option Elab.async false

namespace Sys2Proof.StopRamps

open Sys2Proof.Machine Sys2Proof.Safety Sys2Proof.Claims Sys2Proof.SectionLine Sys2Proof.StepTime Sys2Proof.MotionProfiles
  Sys2Proof.ResumeRequest

variable {s t u : State} {g : Pgn}

/-! What the outcome of a common profile leaves of a halt at its last word (R94, R97). -/

theorem onlyIn_trans {l : List Block} (h : OnlyIn l s t) (k : OnlyIn l t u) : OnlyIn l s u := by
  refine ⟨fun b n => ?_, k.2.1.trans h.2.1, k.2.2.trans h.2.2⟩
  have first := h.1 b n
  have second := k.1 b n
  cases b <;> exact Eq.trans second first

/-- R94, R97, R99: `u` is the state that FOLLOWING_ERROR has halted at the word of a period, changed in nothing that the causes, the line
and the drive but its halted-from hold. -/
structure LostThen (s : State) (g : Pgn) (u : State) (from_ : Option ShuttleState) : Prop where
  har : u.har = (Lost s g).har
  lpt : u.lpt = (Lost s g).lpt
  ssv : u.ssv = { (Lost s g).ssv with haltedFrom := from_ }

theorem LostThen.held {x : Option ShuttleState} (k : LostThen s g u x) (h : Exceeds s g) : HeldBy .followingError u := by
  obtain ⟨every, seven, pending, drive, shuttle⟩ := lost_held h
  refine ⟨?_, ?_, ?_, ?_, ?_⟩
  · rw [EveryCause, k.har]
    exact every
  · rw [k.har]
    exact seven
  · rw [k.har]
    exact pending
  · rw [k.ssv]
    exact drive
  · rw [k.ssv]
    exact shuttle

/-- R94, R97: what the halt has done by the end of the command. -/
theorem LostThen.closed {x : Option ShuttleState} (k : LostThen s g u x) (h : Exceeds s g) :
    FollowingLost s u.close g ∧ u.close.ssv = { HaltedDrive (WordStarted s.ssv g.setpoint) with haltedFrom := x }
      ∧ u.close.pgn = u.pgn := by
  have held := k.held h
  obtain ⟨keptSsv, keptPgn⟩ := close_held rfl held
  have same := lost_same s g
  have closed := close_same u
  rw [k.har] at closed
  have levels : LevelsLegal (Lost s g) := levelsLegal_same same h.2.2.1
  have announced : PairAnnounced u := by
    rw [PairAnnounced, k.har]
    exact lost_announced h
  have pending : u.close.har.isPending .followingError = true := (closed.pending _ rfl).trans (lost_held h).pending
  have seven := announcedLevel_held (levelsLegal_same closed levels) ((closed.level _).trans (lost_held h).seven) pending
    ((close_follows u).announced held.every announced)
  have drive : u.close.ssv = { HaltedDrive (WordStarted s.ssv g.setpoint) with haltedFrom := x } := by
    rw [keptSsv, k.ssv, (lost_drive h).1]
  have kept : LatchedKept [.followingError] s u.close :=
    ⟨fun c => (closed.level c).trans (same.level c), fun c latched other =>
      (closed.pending c latched).trans (same.pending c (by simpa using other))⟩
  refine ⟨⟨kept, pending, seven, ?_, ?_, ?_, ?_, ?_, ?_, ?_, fun eighth => ?_⟩, drive, keptPgn⟩
  case refine_8 =>
    obtain ⟨f, queued, payload⟩ := lost_position h eighth
    have own : ofCauses f.payload = false := by rw [payload]; rfl
    refine ⟨f, ((close_follows u).queue f own).2 ?_, payload⟩
    rw [k.lpt]
    exact ((close_follows (Lost s g)).queue f own).1 queued
  all_goals
    rw [drive]
    rfl

/-! The ramp (R78, R79). -/

/-- R78: the velocity of the period about to end. -/
def Slower (s : State) : Nat := s.pgn.velocity - s.items.stopDecel

/-- R78: the position at its end, limited to the pitch. -/
def RampPosition (s : State) : Nat := min (s.pgn.base + s.pgn.acc + Slower s) (s.pitch * 256)

/-- R78: the profile as a period of the ramp ends, before the time of the next is counted. -/
def RampPeriod (s : State) : Pgn :=
  { s.pgn with velocity := Slower s, acc := RampPosition s - s.pgn.base, counter := s.pgn.counter + 1
               setpoint := ((RampPosition s / 256 : Nat) : Int) }

/-- R79: the profile whose ramp has ended. -/
def RampStop (s : State) : Pgn := { RampPeriod s with phase := .idle, stopPosition := some (RampPosition s) }

theorem endPeriod_ramp (kind : s.pgn.kind ≠ .homing) (ramps : Ramps s.pgn) : s.pgn.endPeriod s.items.stopDecel s.pitch
    = if Slower s = 0 then (RampStop s, .rampEnded) else (RampPeriod s, .goesOn) := by
  rw [Pgn.endPeriod, if_neg kind, if_pos ((inRamp_iff s.pgn).2 ramps)]
  rfl

/-- R62, R87: what the end of a stop ramp does in the shuttle and the sequencer. -/
def Halts (u : State) : State :=
  { u with
    ssv := if u.ssv.shuttle = .halted then { u.ssv with haltedFrom := some .haltedMid } else { u.ssv with shuttle := .haltedMid }
    ixs := { u.ixs with state := if u.ixs.state = .stopping then .stopped else u.ixs.state } }

theorem rampEnded_eq (u : State) : u.rampEnded = Halts u := by
  have entered (v : State) (ixs : v.ixs = u.ixs) : (if v.ixs.state = .stopping then v.enter .stopped else v)
      = { v with ixs := { u.ixs with state := if u.ixs.state = .stopping then .stopped else u.ixs.state } } := by
    rw [State.enter, ixs]
    split
    · rfl
    · rw [← ixs]
  unfold State.rampEnded
  rcases moveShuttle_cases u .haltedMid with ⟨halted, e⟩ | ⟨free, e⟩
  · rw [e, Halts, if_pos halted]
    exact entered { u with ssv := { u.ssv with haltedFrom := some .haltedMid } } rfl
  · rw [e, Halts, if_neg free]
    exact entered { u with ssv := { u.ssv with shuttle := .haltedMid } } rfl

theorem outcome_ramp {u : State} (kind : u.pgn.kind = .forward ∨ u.pgn.kind = .resume) :
    u.outcomeAfterWord .rampEnded = Halts u := by
  have foreign : ¬(u.pgn.kind.localKind = true ∧ u.ssv.drive = false) := by
    rcases kind with e | e <;> rw [e] <;> exact nofun
  have common : ¬u.pgn.kind = .homing := by rcases kind with e | e <;> rw [e] <;> exact nofun
  rw [State.outcomeAfterWord, if_neg foreign, ← rampEnded_eq]
  exact if_neg common

theorem halts_offline (u : State) : (Halts u).offline = u.offline := by
  unfold State.offline Halts
  dsimp only
  split
  · rename_i stopping
    rw [stopping]
    rfl
  · rfl

theorem halts_settled (settled : CausesSettled u) : CausesSettled (Halts u) := settled_congr settled rfl (halts_offline u)

/-- R58: LOWERING is not entered by the end of a ramp. -/
theorem halts_lowering (h : (Halts u).ixs.state = .lowering) : u.ixs.state = .lowering := by
  unfold Halts at h
  dsimp only at h
  split at h
  · cases h
  · exact h

/-! The halt at the last word of a ramp. -/

/-- R62, R94: the halted shuttle of an ended ramp. -/
theorem lostThen_halts (far : Exceeds s g) : LostThen s g (Halts (Lost s g)) (some .haltedMid) :=
  ⟨rfl, rfl, if_pos (lost_held far).dropped.2⟩

theorem halts_onlyIn (u : State) : OnlyIn causeBlocks u (Halts u) := by
  refine ⟨fun b n => ?_, rfl, rfl⟩
  cases b with
  | ssv | ixs => exact absurd (by decide) n
  | _ => rfl

theorem lost_halts_ixsKept (s : State) (g : Pgn) : IxsKept (Halts (GivenOut s g)) (Halts (Lost s g)).close := by
  have state : (Halts (Lost s g)).ixs = (Halts (GivenOut s g)).ixs
      ∨ ((Halts (GivenOut s g)).ixs.state = .ready
        ∧ (Halts (Lost s g)).ixs = { (Halts (GivenOut s g)).ixs with state := .working }) := by
    unfold Halts
    dsimp only
    rcases (lost_frame s g).ixs with e | ⟨ready, e⟩ <;> rw [e]
    · exact .inl rfl
    · exact .inr (by rw [show (GivenOut s g).ixs = s.ixs from rfl, ready]; exact ⟨rfl, rfl⟩)
  rcases state with e | ⟨ready, e⟩
  · unfold IxsKept
    rw [← e]
    exact (close_frame _).ixs
  · exact .inr ⟨ready, (close_ixs (by rw [e]; exact nofun)).trans e⟩

/-- R62, R79, R97: the period that ends a ramp. -/
theorem periodTaken_halts (runs : PeriodRuns s) (kind : s.pgn.kind = .forward ∨ s.pgn.kind = .resume) (ramps : Ramps s.pgn)
    (zero : Slower s = 0) : PeriodTaken s (Timed (RampStop s)) Halts := by
  have homing : s.pgn.kind ≠ .homing := by rcases kind with e | e <;> rw [e] <;> exact nofun
  have ends := endPeriod_ramp homing ramps
  rw [if_pos zero] at ends
  have outcome : (GivenOut s (Timed (RampStop s))).outcomeAfterWord .rampEnded = Halts (GivenOut s (Timed (RampStop s))) :=
    outcome_ramp kind
  refine ⟨_, exec_periodEnd runs, fun busy => ?_, fun free follows => ?_, fun given settled => ?_, fun far => ?_⟩
  · rw [endPeriod_busy runs ends outcome busy]
    exact close_leads _
  · rw [endPeriod_follows runs ends outcome free follows]
    exact reportWord_reports _
  · have calm := halts_settled ((givenOut_judged s (Timed (RampStop s))).settled settled)
    by_cases busy : s.ssv.wordAge < 40
    · rw [endPeriod_busy runs ends outcome busy]
      exact (close_settled_drive calm).2
    · obtain ⟨follows, -, lowering, -⟩ := given.resolve_left busy
      obtain ⟨kept, pgn⟩ := reportWord_keeps (s := Halts (GivenOut s (Timed (RampStop s))))
        fun waits => lowering ⟨halts_lowering waits.1, waits.2⟩
      rw [endPeriod_follows runs ends outcome (Nat.not_lt.1 busy) follows]
      exact (close_settled_drive (kept.settled calm)).2.trans pgn
  · have then_ := lostThen_halts far
    have given : Advanced s (Timed (RampStop s)) = Lost s (Timed (RampStop s)) := advanced_exceeds far.1 far.2.1
    have profile : (Lost s (Timed (RampStop s))).pgn = Timed (RampStop s) :=
      (lost_drive far).2.trans (halt_common (by rcases kind with e | e <;> exact congrArg PgnKind.localKind e))
    have done : (Lost s (Timed (RampStop s))).outcomeAfterWord .rampEnded = Halts (Lost s (Timed (RampStop s))) :=
      outcome_ramp (by rw [profile]; exact kind)
    rw [endPeriod_eq runs ends, given, done, reportWord_dropped (then_.held far).dropped.1, ite_self, if_pos kind]
    obtain ⟨lost, ssv, pgn⟩ := then_.closed far
    refine ⟨lost, ?_, lost_halts_ixsKept _ _, pgn.trans profile, ?_⟩
    · exact onlyIn_trans (onlyIn_trans (onlyIn_of_holdFrame (lost_frame _ _)) (halts_onlyIn _)) (onlyIn_of_holdFrame (close_frame _))
    · rw [ssv]
      unfold Halts
      dsimp only
      rw [givenOut_shuttle, if_neg far.2.2.2.2.2]

/-- Settles O51: a period of the ramp goes on to the next (`periodTaken_of`), or at velocity 0 ends it (`periodTaken_halts`). -/
theorem stopRampPeriod : Obligations.StopRampPeriod := by
  intro s runs kind ramps
  refine ⟨fun moves => ?_, fun stops => periodTaken_halts runs kind ramps stops⟩
  have homing : s.pgn.kind ≠ .homing := by rcases kind with e | e <;> rw [e] <;> exact nofun
  have some : s.pgn.kind ≠ .none := by rcases kind with e | e <;> rw [e] <;> exact nofun
  have ends := endPeriod_ramp homing ramps
  have slower : ¬Slower s = 0 := Nat.pos_iff_ne_zero.1 moves
  rw [if_neg slower] at ends
  exact periodTaken_of runs ends rfl some (.inr rfl) (outcomeAfterWord_goesOn _) ⟨rfl, rfl, rfl, rfl, rfl, rfl, rfl⟩ rfl

end Sys2Proof.StopRamps
end

section
/-! A common profile runs on through what the causes do; LIFTED at its observation (R39, R48, R50, R70, R71, R85 to R87, R94, R95). -/

set_option Elab.async false

namespace Sys2Proof.CommonMotion

open Sys2Proof.Machine Sys2Proof.Safety Sys2Proof.Claims Sys2Proof.SectionLine Sys2Proof.StepTime Sys2Proof.MotionProfiles
  Sys2Proof.ReadyFrames

variable {s t : State} {p : Pgn} {c : Cause} {m : Nat} {own : Bool} {clock : FrameClock} {h : Header}

/-! A common profile and the causes (R85, R94, R95). -/

/-- R87: the shuttle on the way of a common profile, or halted from it. -/
def OnTheWay (v : Ssv) : Prop :=
  if v.shuttle = .halted then v.haltedFrom = some .forward ∨ v.haltedFrom = some .stopping
  else v.shuttle = .forward ∨ v.shuttle = .stopping

/-- R85: `p` is the common profile that runs in `s`, the shuttle on its way. -/
structure RunsOn (p : Pgn) (s : State) : Prop where
  profile : s.pgn = p
  common : p.kind.localKind = false
  way : OnTheWay s.ssv

theorem RunsOn.of_drive (k : RunsOn p s) (ssv : t.ssv = s.ssv) (pgn : t.pgn = s.pgn) : RunsOn p t :=
  ⟨pgn.trans k.profile, k.common, ssv ▸ k.way⟩

/-- R85, R94: a halt leaves a common profile. -/
theorem RunsOn.dropDrive (k : RunsOn p s) : RunsOn p s.dropDrive := by
  obtain ⟨profile, common, way⟩ := k
  unfold OnTheWay at way
  by_cases halted : s.ssv.shuttle = .halted
  · rw [if_pos halted] at way
    have dropped : s.dropDrive = { s with ssv := { s.ssv with drive := false } } := if_pos halted
    rw [dropped]
    exact ⟨profile, common, (if_pos halted).mpr way⟩
  · rw [if_neg halted] at way
    obtain ⟨ssv, pgn⟩ := dropDrive_free halted
    refine ⟨by rw [pgn, profile, halt_common common], common, ?_⟩
    rw [ssv]
    exact (if_pos rfl).mpr (way.imp (congrArg some) (congrArg some))

/-- R95: a shuttle halted from a common profile does not restart. -/
theorem RunsOn.restart (k : RunsOn p s) : s.restart = s := by
  have way := k.way
  unfold OnTheWay at way
  unfold State.restart
  by_cases halted : s.ssv.shuttle = .halted
  · rw [if_pos halted] at way
    rw [if_neg (not_not_intro halted)]
    rcases way with e | e <;> rw [e]
  · exact if_pos halted

theorem RunsOn.raise (k : RunsOn p s) (c : Cause) : RunsOn p (s.raise c) := by
  by_cases taken : s.offline ∨ s.har.level c = 0 ∨ s.har.isPending c
  · rw [raise_ignored s c taken]
    exact k
  · obtain ⟨ssv, pgn⟩ := raise_drive taken
    split at ssv
    · rename_i seven
      rw [if_pos seven] at pgn
      exact k.dropDrive.of_drive ssv pgn
    · rename_i lower
      rw [if_neg lower] at pgn
      exact k.of_drive ssv pgn

theorem RunsOn.unpend (k : RunsOn p s) (c : Cause) : RunsOn p (s.unpend c) := by
  unfold State.unpend
  have announced : RunsOn p { s with har := s.har.setPending c false }.announce := k.of_drive (by simp) (by simp)
  split
  · dsimp only
    rw [announced.restart, ite_self]
    exact announced
  · exact k

/-- R85, R94, R95: what the causes do at the end of a command leaves a common profile. -/
theorem RunsOn.close (k : RunsOn p s) : RunsOn p s.close := by
  have fold (l : List Cause) : ∀ u : State, RunsOn p u → RunsOn p (l.foldl State.refreshCause u) := by
    induction l with
    | nil => exact fun _ k => k
    | cons c l ih =>
      refine fun u k => ih _ ?_
      unfold State.refreshCause
      split
      · exact k.raise c
      · exact k.unpend c
  have folded : RunsOn p s.refreshCauses := fold Cause.selfClearing s k
  unfold State.close
  generalize s.refreshCauses = u at folded
  exact folded.of_drive rfl rfl

/-! The start of a common profile (R48, R50, R64, R87). -/

/-- R48, R50, R64: the station once a common profile has been prepared: MOVING, the shuttle FORWARD or halted from it, and at an announced
level of 7 STOP queued. -/
def Moving (s : State) (p : Pgn) (x : LineTime) : State :=
  { s with
    pgn := p
    ssv := OnForward s.ssv
    ixs := { s.ixs with state := .moving, origin := some x, resumeStep := .none }
    lpt := if s.har.announcedLevel = 7 then s.lpt.enqueue (.stop s.ixs.index s.har.announcedCause 7) else s.lpt }

theorem startMotion_eq (s : State) (p : Pgn) (x : LineTime) : s.startMotion p x = Moving s p x := by
  let u : State := { s with
    pgn := p, ssv := { s.ssv.endHoming with repositionTarget := none, repositionUse := none }
    ixs := { s.ixs with origin := some x, resumeStep := .none } }
  have forward : (u.moveShuttle .forward).enter .moving
      = { s with pgn := p, ssv := OnForward s.ssv, ixs := { s.ixs with state := .moving, origin := some x, resumeStep := .none } } := by
    unfold OnForward
    by_cases halted : s.ssv.shuttle = .halted
    · rw [show u.moveShuttle .forward = _ from if_pos (c := u.ssv.shuttle = .halted) halted]
      dsimp only
      rw [if_pos halted]
      rfl
    · rw [show u.moveShuttle .forward = _ from if_neg (c := u.ssv.shuttle = .halted) halted]
      dsimp only
      rw [if_neg halted]
      rfl
  change (if ((u.moveShuttle .forward).enter .moving).har.announcedLevel = 7 then ((u.moveShuttle .forward).enter .moving).queueStop
    ((u.moveShuttle .forward).enter .moving).har.announcedCause else (u.moveShuttle .forward).enter .moving) = _
  rw [forward]
  unfold Moving
  dsimp only
  split
  · rename_i seven
    unfold State.queueStop State.stopPayload State.queueFrame
    rw [seven]
  · rfl

theorem onForward_way (v : Ssv) : OnTheWay (OnForward v) := by
  unfold OnTheWay OnForward
  dsimp only
  by_cases halted : v.shuttle = .halted
  · rw [if_pos halted, if_pos halted]
    exact .inl rfl
  · rw [if_neg halted, if_neg nofun]
    exact .inl rfl

theorem moving_runsOn (s : State) (x : LineTime) (common : p.kind.localKind = false) : RunsOn p (Moving s p x) :=
  ⟨rfl, common, onForward_way s.ssv⟩

theorem originOf_eq (stamp : LineTime) : originOf stamp = OriginAfter stamp := rfl

/-- R70, R71: the forward profile over the pitch. -/
theorem prepareForward_prepared (p : Pgn) (pitch vmax accel : Nat) (x : LineTime) :
    Prepared p (p.prepareForward pitch vmax accel x) .forward (pitch * 256) vmax accel :=
  ⟨rfl, rfl, rfl, rfl, rfl, rfl, rfl, rfl, rfl, rfl, rfl, rfl, rfl⟩

/-! LIFTED (R39, R48). -/

/-- R39: the mark of the member set. -/
def LiftedMarked (s : State) (m : Nat) (own : Bool) : State :=
  { Arrived s m own with peers := updateAt (fun p => { p with lifted := true }) m (Arrived s m own).peers }

/-- R39: LIFTED acts. -/
def LiftedTaken (s : State) (i : IndexNo) : Prop := i = s.ixs.index ∧ (s.ixs.state = .releasing ∨ s.ixs.state = .liftWait)

theorem deliverLifted_taken {i : IndexNo} (taken : LiftedTaken s i) :
    (Arrived s m own).deliver ⟨m, own, clock⟩ ⟨h, .lifted i⟩ = (LiftedMarked s m own).checkLiftedBarrier h.stamp := if_pos taken

theorem liftedBarrier_iff (s : State) (m : Nat) (own : Bool) : ((LiftedMarked s m own).ixs.state = .liftWait
    ∧ (LiftedMarked s m own).allMarked Peer.lifted = true) ↔ s.ixs.state = .liftWait ∧ OthersMarked s m Peer.lifted :=
  and_congr Iff.rfl (all_marked_iff (fun _ => rfl) m s.peers)

/-- R48, R50: the station at whose LIFTED_WAIT the barrier is complete, its timer stopped and its STOP withdrawn. -/
def BarrierPassed (s : State) : State :=
  { s with ixs := { s.ixs with liftBarrierTimer := none }, lpt := s.lpt.withdraw (isStopOf s.ixs.index) }

/-- R48, R70: the forward profile prepared at its origin. -/
def ForwardStarted (s : State) (x : LineTime) : State :=
  Moving (BarrierPassed s) (s.pgn.prepareForward s.pitch s.items.vmax s.items.accel (OriginAfter x)) (OriginAfter x)

theorem forwardStarted_profile (s : State) (x : LineTime) : (ForwardStarted s x).close.pgn
    = s.pgn.prepareForward s.pitch s.items.vmax s.items.accel (OriginAfter x) := (moving_runsOn _ _ rfl).close.profile

theorem checkLiftedBarrier_passes (complete : s.ixs.state = .liftWait ∧ s.allMarked Peer.lifted = true) (x : LineTime) :
    s.checkLiftedBarrier x = ForwardStarted s x := by
  rw [State.checkLiftedBarrier, if_pos complete, ForwardStarted, ← startMotion_eq]
  rfl

/-- Settles O28: LIFTED marks its member, and the barrier starts the forward profile (`startMotion_eq`), which runs on (`RunsOn.close`). -/
theorem liftedMarksAndMoves : Obligations.LiftedMarksAndMoves := by
  intro s h i m own clock arrives a taken complete marked o l
  refine ⟨_, congrArg Host.Outcome.next (observe_arrives arrives), fun left => ?_, fun taken short => ?_, fun taken state all => ?_⟩
  · rw [show a.deliver ⟨m, own, clock⟩ ⟨h, .lifted i⟩ = a from if_neg left]
    exact close_leads a
  · rw [deliverLifted_taken taken, State.checkLiftedBarrier, if_neg (mt (liftedBarrier_iff s m own).1 short)]
    exact close_leads (LiftedMarked s m own)
  · rw [deliverLifted_taken taken, checkLiftedBarrier_passes ((liftedBarrier_iff s m own).2 ⟨state, all⟩)]
    refine ⟨close_leads (ForwardStarted (LiftedMarked s m own) h.stamp), ?_⟩
    rw [forwardStarted_profile]
    exact ⟨prepareForward_prepared _ _ _ _ _, rfl, rfl, rfl⟩

end Sys2Proof.CommonMotion
end

section
/-! STOP at its observation, by sequencer state (R52, R53, R56, R62, R65, R77, R80, R105, R115, Table 3-3). -/

set_option Elab.async false

namespace Sys2Proof.StopFrames

open Sys2Proof.Machine Sys2Proof.Safety Sys2Proof.Claims Sys2Proof.SectionLine Sys2Proof.StepTime Sys2Proof.MotionProfiles
  Sys2Proof.FixtureRelease Sys2Proof.FixtureReports Sys2Proof.CommonMotion

variable {s : State} {h : Header} {i : IndexNo} {c lv m : Nat} {own : Bool} {clock : FrameClock}

/-! The abandonment (R52, R53). -/

/-- R53: the fixture that is seated with the lift DOWN, one with the status EMPTY being left as it is. -/
def AbandonedFixture (s : State) : Fxs := if s.rst.status = .empty then s.fxs else Seats s

/-- R53: the pallet back in its fixture, ABANDONING ends at once where that is settled. -/
def Reseated (s : State) : State :=
  let fx := AbandonedFixture s
  let settled := (fx.state = .secured ∧ s.rst.status ≠ .empty) ∨ (fx.state = .open ∧ s.rst.status = .empty)
  { s with
    fxs := fx
    ixs := { s.ixs with
      state := if settled then .working else .abandoning
      step := if settled then .none else .abandonSeat
      lowerExpired := none, loweringTimer := none } }

theorem abandonSeat_eq (abandoning : s.ixs.state = .abandoning) : s.abandonSeat = Reseated s := by
  let w : State := { s with ixs := { s.ixs with loweringTimer := none, step := .abandonSeat, lowerExpired := none } }
  let u : State := { w with fxs := AbandonedFixture s }
  have seated : s.abandonSeat = u.fixtureReported := by
    by_cases empty : s.rst.status = .empty
    · have fixture : s.fxs = AbandonedFixture s := (if_pos empty).symm
      have left : s.abandonSeat = w.fixtureReported := if_pos empty
      exact left.trans (congrArg (fun f => State.fixtureReported { w with fxs := f }) fixture)
    · have fixture : Seats s = AbandonedFixture s := (if_neg empty).symm
      have commanded : s.abandonSeat = w.seatFixture := if_neg empty
      exact (commanded.trans (seatFixture_eq w)).trans (congrArg (fun f => State.fixtureReported { w with fxs := f }) fixture)
  rw [seated]
  unfold Reseated
  dsimp only
  split
  · rename_i settled
    exact fixtureReported_ends (s := u) (.inr ⟨abandoning, rfl⟩) ((fixtureSettled_iff u).2 settled)
  · rename_i unsettled
    rw [fixtureReported_stays (s := u) (.inr ⟨abandoning, rfl⟩) unsettled, ← abandoning]

/-- R52: the station that abandons the release, its lift commanded down. -/
def Abandoned (s : State) (v : Ssv) : State :=
  { s with
    lpt := (s.lpt.withdraw (ofKind .lifted)).withdraw (isStopOf s.ixs.index)
    peers := s.peers.map fun p => { p with ready := false, lifted := false }
    ssv := v
    ixs := { s.ixs with state := .abandoning, liftBarrierTimer := none } }

theorem abandon_eq (s : State) : s.abandon =
    if s.ssv.lowerLift.liftState = .down then (Abandoned s s.ssv.lowerLift).abandonSeat
    else ({ Abandoned s s.ssv.lowerLift with ixs := { (Abandoned s s.ssv.lowerLift).ixs with
      loweringTimer := some (Config.timeout s.items.lowerTimeout), step := .abandonLift, lowerExpired := none } } : State) := by
  have marks : (s.peers.map fun p => ({ p with ready := false } : Peer)).map (fun p => ({ p with lifted := false } : Peer))
      = s.peers.map fun p => { p with ready := false, lifted := false } := List.map_map
  unfold Abandoned
  rw [← marks]
  rfl

/-- R53: the lift that is not DOWN falls, its timer running. -/
theorem abandon_falls (lift : s.ssv.liftState ≠ .down) :
    s.abandon = { Abandoned s { s.ssv with lift := false, liftState := .falling } with ixs := { s.ixs with
      state := .abandoning, step := .abandonLift, lowerExpired := none, liftBarrierTimer := none
      loweringTimer := some (Timeout s.items.lowerTimeout) } } := by
  have falls : s.ssv.lowerLift = { s.ssv with lift := false, liftState := .falling } := by
    unfold Ssv.lowerLift
    by_cases falling : s.ssv.liftState = .falling
    · rw [if_pos (.inr falling), falling]
    · rw [if_neg (not_or.2 ⟨lift, falling⟩)]
  rw [abandon_eq, falls, timeout_eq]
  exact if_neg nofun

/-- R53: with the lift DOWN already the pallet is seated at once. -/
theorem abandon_down (lift : s.ssv.liftState = .down) :
    s.abandon = Reseated (Abandoned s { s.ssv with lift := false }) := by
  have down : s.ssv.lowerLift = { s.ssv with lift := false } := by
    unfold Ssv.lowerLift
    rw [if_pos (.inl lift)]
  rw [abandon_eq, down, ← abandonSeat_eq rfl]
  exact if_pos lift

/-! The ramp start period (R56). -/

/-- R56: the time from the origin to the stop stamp and 2,000 µs. -/
def StopDistance (origin stamp : LineTime) : Int := ((stamp + 2000#32) - origin).toInt

/-- R56: the smallest period whose start is at or later than the stop stamp and 2,000 µs. -/
theorem rampStart_smallest (origin stamp : LineTime) : 1 ≤ rampStart origin stamp
    ∧ StopDistance origin stamp ≤ ((rampStart origin stamp : Int) - 1) * 1000
    ∧ ∀ k : Nat, 1 ≤ k → k < rampStart origin stamp → ((k : Int) - 1) * 1000 < StopDistance origin stamp := by
  have value : rampStart origin stamp = if StopDistance origin stamp ≤ 0 then 1
      else (((StopDistance origin stamp).toNat + 999) / 1000) + 1 := rfl
  rw [value]
  split
  · refine ⟨le_rfl, by omega, fun k least below => by omega⟩
  · refine ⟨by omega, by omega, fun k least below => by omega⟩

/-- R56, R77: the ramp begins in the profile. -/
def RampsDown (s : State) (x : LineTime) (j : Nat) : State :=
  { s with
    ixs := { s.ixs with stopStamp := some x, state := .stopping }
    pgn := s.pgn.ramp j
    ssv := if s.ssv.shuttle = .halted then { s.ssv with haltedFrom := some .stopping } else { s.ssv with shuttle := .stopping } }

theorem stopMotion_eq (s : State) (x : LineTime) : s.stopMotion x =
    if rampStart (s.ixs.origin.getD s.pgn.origin) x ≤ s.pgn.periods
    then RampsDown s x (rampStart (s.ixs.origin.getD s.pgn.origin) x)
    else { s with ixs := { s.ixs with stopStamp := some x } } := by
  unfold State.stopMotion
  dsimp only
  split
  · unfold RampsDown State.moveShuttle
    dsimp only
    split <;> rfl
  · rfl

/-- R77: the first period of the ramp. -/
theorem rampsDown_profile {x : LineTime} {j : Nat} (calm : s.pgn.phase ≠ .ramping) (common : s.pgn.kind.common = true) :
    (RampsDown s x j).close.pgn.phase = .ramping
      ∧ (RampsDown s x j).close.pgn.rampFrom = some (max j (if s.pgn.begun then s.pgn.counter + 2 else 1)) := by
  have ramp : s.pgn.ramp j = { s.pgn with phase := .ramping, rampFrom := some (max j s.pgn.nextPeriod) } := if_neg calm
  have kind : (s.pgn.ramp j).kind.localKind = false := by
    rw [ramp]
    rcases (common_iff s.pgn.kind).1 common with e | e <;> exact congrArg PgnKind.localKind e
  have way : OnTheWay (RampsDown s x j).ssv := by
    unfold OnTheWay RampsDown
    dsimp only
    by_cases halted : s.ssv.shuttle = .halted
    · rw [if_pos halted, if_pos halted]
      exact .inr rfl
    · rw [if_neg halted, if_neg nofun]
      exact .inr rfl
  have runs : RunsOn (s.pgn.ramp j) (RampsDown s x j) := ⟨rfl, kind, way⟩
  rw [runs.close.profile, ramp]
  exact ⟨rfl, rfl⟩

/-! The frame (R154, Table 3-3). -/

/-- R50, R154: the levels written, and a STOP of the index that still waits withdrawn. -/
theorem deliverStop_taken (index : i = s.ixs.index) : (Arrived s m own).deliver ⟨m, own, clock⟩ ⟨h, .stop i c lv⟩
    = ((Arrived s m own).updatePeer m (raiseLevel lv c)).takeStop h.stamp := if_pos index

section states

variable {x : LineTime}

theorem takeStop_abandons (state : s.ixs.state = .releasing ∨ s.ixs.state = .liftWait) :
    s.takeStop x = (s.withdraw (isStopOf s.ixs.index)).abandon := by
  have kept : (s.withdraw (isStopOf s.ixs.index)).ixs.state = s.ixs.state := rfl
  unfold State.takeStop
  dsimp only
  rcases state with e | e <;> rw [kept, e]

theorem takeStop_ramps (state : s.ixs.state = .moving) : s.takeStop x = (s.withdraw (isStopOf s.ixs.index)).stopMotion x := by
  have kept : (s.withdraw (isStopOf s.ixs.index)).ixs.state = s.ixs.state := rfl
  unfold State.takeStop
  dsimp only
  rw [kept, state]

theorem takeStop_clears (state : s.ixs.state = .stopped ∨ s.ixs.state = .resumeWait) :
    s.takeStop x = (s.withdraw (isStopOf s.ixs.index)).stopResume := by
  have kept : (s.withdraw (isStopOf s.ixs.index)).ixs.state = s.ixs.state := rfl
  unfold State.takeStop
  dsimp only
  rcases state with e | e <;> rw [kept, e]

theorem takeStop_goesOn (state : s.ixs.state ∉ [SeqState.releasing, .liftWait, .moving, .stopped, .resumeWait]) :
    s.takeStop x = s.withdraw (isStopOf s.ixs.index) := by
  have kept : (s.withdraw (isStopOf s.ixs.index)).ixs.state = s.ixs.state := rfl
  unfold State.takeStop
  dsimp only
  rw [kept]
  cases e : s.ixs.state
  case releasing | liftWait | moving | stopped | resumeWait => exact absurd (by rw [e]; decide) state
  all_goals rfl

end states

/-- Settles O31: state by state, the abandonment by `abandon_eq`, the ramp by `stopMotion_eq` with its start by `rampStart_smallest`. -/
theorem stopByState : Obligations.StopByState := by
  intro s h i c lv m own clock arrives a d
  let w : State := (Arrived s m own).updatePeer m (raiseLevel lv c)
  refine ⟨_, congrArg Host.Outcome.next (observe_arrives arrives), fun other => ?_, fun index => ?_⟩
  · rw [show (Arrived s m own).deliver ⟨m, own, clock⟩ ⟨h, .stop i c lv⟩ = Arrived s m own from if_neg other]
    exact close_leads _
  · rw [deliverStop_taken index]
    refine ⟨fun state => ?_, fun state lift => ?_, fun state lift => ?_, fun state => ?_, fun state => ?_⟩
    · rw [takeStop_goesOn (s := w) state]
      exact close_leads a
    · have abandoned := (takeStop_abandons (s := w) (x := h.stamp) state).trans (abandon_falls (s := a) lift)
      rw [abandoned]
      exact close_leads _
    · have abandoned := (takeStop_abandons (s := w) (x := h.stamp) state).trans (abandon_down (s := a) lift)
      rw [abandoned]
      exact close_leads _
    · obtain ⟨least, reached, smallest⟩ := rampStart_smallest (s.ixs.origin.getD s.pgn.origin) h.stamp
      have ramps := (takeStop_ramps (s := w) (x := h.stamp) state).trans (stopMotion_eq a h.stamp)
      refine ⟨rampStart (s.ixs.origin.getD s.pgn.origin) h.stamp, least, reached, smallest, fun late => ?_, fun within => ?_⟩
      · rw [ramps.trans (if_neg (Nat.not_le.2 late))]
        exact close_leads _
      · rw [ramps.trans (if_pos within)]
        exact ⟨close_leads _, fun calm common => rampsDown_profile (s := a) calm common⟩
    · rw [takeStop_clears (s := w) state]
      exact close_leads a.stopResume

end Sys2Proof.StopFrames
end

section
/-! A cause raised before or after a change of the fixture and the sequencer does the same, and the seating decision at the end of a command
(R60, R105, R109, R110, R114, R115, R126, R127, R149). -/

set_option Elab.async false

namespace Sys2Proof.SeatingDecisions

open Sys2Proof.Machine Sys2Proof.Safety Sys2Proof.Claims Sys2Proof.StepTime Sys2Proof.MotionProfiles Sys2Proof.FixtureRelease
  Sys2Proof.FixtureReports Sys2Proof.ColumnFrames Sys2Proof.JoinFrames

variable {s t : State} {f : Fxs} {x : Ixs}

/-! A cause and a change that it does not read (R149). -/

/-- The sequencer's state, for what a cause reads of it: the index, OFFLINE, READY, FORMING and the states of R50. -/
structure Alike (x y : Ixs) : Prop where
  index : y.index = x.index
  unready : x.state ≠ .ready ∧ y.state ≠ .ready
  offline : (y.state == .offline) = (x.state == .offline)
  forming : (y.state == .forming) = (x.state == .forming)
  stops : y.state.queuesStop = x.state.queuesStop

/-- The state with another fixture and sequencer. -/
def Recast (s : State) (f : Fxs) (x : Ixs) : State := { s with fxs := f, ixs := x }

theorem leaveReady_unready (h : s.ixs.state ≠ .ready) : s.leaveReady = s.withdraw (ofKind .ready) := if_neg h

theorem renewJoin_recast (h : Alike s.ixs x) : (Recast s f x).renewJoin = Recast s.renewJoin f x := by
  have payload : (Recast s f x).joinPayload = s.joinPayload := by
    unfold State.joinPayload
    rw [show (Recast s f x).ixs = x from rfl, h.index, h.forming]
    rfl
  unfold State.renewJoin
  rw [payload]
  by_cases holds : s.lpt.holds (ofKind .join) = true
  · rw [if_pos holds]
    exact if_pos holds
  · rw [if_neg holds]
    exact if_neg holds

theorem announce_recast (h : Alike s.ixs x) : (Recast s f x).announce = Recast s.announce f x := by
  by_cases same : s.har.pair = (s.har.announcedLevel, s.har.announcedCause)
  · have left : s.announce = s := if_pos same
    have left' : (Recast s f x).announce = Recast s f x := if_pos same
    rw [left, left']
  · let u : State := ({ s with har := { s.har with announcedLevel := s.har.pair.1, announcedCause := s.har.pair.2 } } :
      State).queueFrame (.hold s.har.pair.1 s.har.pair.2)
    have renewed : (Recast u f x).renewJoin = Recast u.renewJoin f x := renewJoin_recast (s := u) h
    have new : s.announce = if 4 ≤ s.har.pair.1 then u.renewJoin.leaveReady else u.renewJoin := if_neg same
    have new' : (Recast s f x).announce
        = if 4 ≤ s.har.pair.1 then (Recast u f x).renewJoin.leaveReady else (Recast u f x).renewJoin := if_neg same
    rw [new, new', renewed]
    split
    · have unready : u.renewJoin.ixs.state ≠ .ready := by rw [renewJoin_ixs]; exact h.unready.1
      rw [leaveReady_unready unready, leaveReady_unready (s := Recast u.renewJoin f x) h.unready.2]
      rfl
    · rfl

theorem dropDrive_recast (s : State) (f : Fxs) (x : Ixs) : (Recast s f x).dropDrive = Recast s.dropDrive f x := by
  unfold State.dropDrive Recast
  dsimp only
  split <;> rfl

/-- R149: a cause raised after the change does what it does before it. -/
theorem raise_recast (c : Cause) (h : Alike s.ixs x) : (Recast s f x).raise c = Recast (s.raise c) f x := by
  have offline : (Recast s f x).offline = s.offline := h.offline
  by_cases taken : s.offline ∨ s.har.level c = 0 ∨ s.har.isPending c
  · rw [raise_ignored s c taken]
    exact raise_ignored _ c (by rw [offline]; exact taken)
  · let u : State := { s with har := s.har.setPending c true }
    have announced : (Recast u f x).announce = Recast u.announce f x := announce_recast (s := u) h
    have ixs : u.announce.ixs = s.ixs := by
      rcases (announce_frame u).ixs with e | ⟨ready, -⟩
      · exact e
      · exact absurd ready h.unready.1
    have stopped : (if 6 ≤ s.har.level c ∧ (Recast u.announce f x).ixs.state.queuesStop
          then (Recast u.announce f x).queueStop c.number else Recast u.announce f x)
        = Recast (if 6 ≤ s.har.level c ∧ u.announce.ixs.state.queuesStop then u.announce.queueStop c.number else u.announce) f x := by
      have payload : (Recast u.announce f x).stopPayload c.number = u.announce.stopPayload c.number := by
        unfold State.stopPayload
        rw [show (Recast u.announce f x).ixs = x from rfl, h.index, ixs]
        rfl
      rw [show (Recast u.announce f x).ixs.state.queuesStop = u.announce.ixs.state.queuesStop from
        h.stops.trans (by rw [ixs]), State.queueStop, State.queueStop, payload]
      split <;> rfl
    have taken' : ¬((Recast s f x).offline ∨ (Recast s f x).har.level c = 0 ∨ (Recast s f x).har.isPending c) := by
      rw [offline]
      exact taken
    rw [raise_taken s c taken, raise_taken (Recast s f x) c taken']
    change (if s.har.level c = 7 then State.dropDrive (if 6 ≤ s.har.level c ∧ (Recast u f x).announce.ixs.state.queuesStop
      then (Recast u f x).announce.queueStop c.number else (Recast u f x).announce)
      else (if 6 ≤ s.har.level c ∧ (Recast u f x).announce.ixs.state.queuesStop
      then (Recast u f x).announce.queueStop c.number else (Recast u f x).announce)) = _
    rw [announced, stopped]
    dsimp only
    split
    · exact dropDrive_recast _ f x
    · rfl

/-! The decision (R60, R126, Table 7-5). -/

theorem seatingRow_eq (content : Option (Option PalletRecord)) (present : Bool) (plate : Nat) :
    seatingRow content present plate = Decision content present plate := by
  rcases content with - | (- | r) <;> cases present <;> rfl

/-- R126: what the incoming slot holds of the index just made. -/
def Content (u : State) : Option (Option PalletRecord) :=
  match u.rst.incoming with
  | some y => if y.index = u.indexMade then some y.content else none
  | none => none

/-- Table 7-5: the row that is decided on. -/
def Row (u : State) : FixtureStatus × Option PalletRecord × Option Cause :=
  Decision (Content u) u.inputs.palletPresent u.inputs.plate.toNat

/-- R60, R126: the wait over, and the status and record of the row set. -/
def RowSet (u : State) : State :=
  { u with
    rst := { u.rst with status := (Row u).1, record := (Row u).2.1 }
    ixs := { u.ixs with upstreamTimer := none, step := .seat, lowerExpired := none } }

theorem decideSeating_eq (u : State) : u.decideSeating = if (Row u).1 = .empty
    then ((RowSet u).raiseOpt (Row u).2.2).openFixture else ((RowSet u).raiseOpt (Row u).2.2).seatFixture := by
  have row : seatingRow (u.rst.slotFor u.indexMade) u.inputs.palletPresent u.inputs.plate.toNat = Row u := seatingRow_eq _ _ _
  unfold State.decideSeating
  rw [row]
  rfl

/-- R105, R114, R115: the fixture by the row. -/
def RowFixture (u : State) : Fxs := if (Row u).1 = .empty then Opens u else Seats u

/-- R60: the row's fixture and status, for which SEATING does not wait. -/
abbrev RowSettled (u : State) : Prop :=
  ((RowFixture u).state = .secured ∧ (Row u).1 ≠ .empty) ∨ ((RowFixture u).state = .open ∧ (Row u).1 = .empty)

/-- R60: the sequencer by the row and its fixture: in WORKING where that is settled. -/
def RowEnds (u : State) : Ixs :=
  { u.ixs with upstreamTimer := none, lowerExpired := none, state := if RowSettled u then .working else .seating
               step := if RowSettled u then .none else .seat }

theorem rowEnds_settled {u : State} (settled : RowSettled u) : RowEnds u = { u.ixs with
    upstreamTimer := none, lowerExpired := none, state := .working, step := .none } := by
  unfold RowEnds
  rw [if_pos settled, if_pos settled]

theorem rowEnds_unsettled {u : State} (seating : u.ixs.state = .seating) (unsettled : ¬RowSettled u) :
    RowEnds u = (RowSet u).ixs := by
  unfold RowEnds
  rw [if_neg unsettled, if_neg unsettled, ← seating]
  rfl

/-- R60, R105: the fixture commanded in a station that waits for it, whatever the causes have done. -/
theorem decided_commanded {u v : State} (seating : u.ixs.state = .seating) (frame : HoldFrame (RowSet u) v) :
    (if (Row u).1 = .empty then v.openFixture else v.seatFixture) = Recast v (RowFixture u) (RowEnds u) := by
  have ixs : v.ixs = (RowSet u).ixs := frame.ixs.resolve_right fun e => by cases seating.symm.trans e.1
  have commanded : (if (Row u).1 = .empty then v.openFixture else v.seatFixture)
      = ({ v with fxs := RowFixture u } : State).fixtureReported := by
    unfold RowFixture
    split
    · rw [openFixture_eq]
      unfold Opens
      rw [frame.fxs, frame.items, frame.inputs]
      rfl
    · rw [seatFixture_eq]
      unfold Seats
      rw [frame.fxs, frame.items, frame.inputs]
      rfl
  have waits : AwaitsFixture { v with fxs := RowFixture u } := .inl ⟨by rw [ixs]; exact seating, by rw [ixs]; rfl⟩
  have settled : Settled { v with fxs := RowFixture u } ↔ RowSettled u := by
    unfold Settled
    rw [frame.rst]
    exact Iff.rfl
  rw [commanded]
  by_cases ends : RowSettled u
  · rw [fixtureReported_ends waits ((fixtureSettled_iff _).2 (settled.2 ends)), rowEnds_settled ends]
    exact congrArg (fun x => ({ v with fxs := RowFixture u, ixs := { x with state := .working, step := .none, lowerExpired := none } }
      : State)) ixs
  · rw [fixtureReported_stays waits (mt settled.1 ends), rowEnds_unsettled seating ends]
    exact congrArg (fun x => ({ v with fxs := RowFixture u, ixs := x } : State)) ixs

/-- R60, R126, R149: the wait ended. -/
theorem decideSeating_recast {u : State} (seating : u.ixs.state = .seating) :
    u.decideSeating = (Recast (RowSet u) (RowFixture u) (RowEnds u)).raiseOpt (Row u).2.2 := by
  have was : (RowSet u).ixs.state = .seating := seating
  have alike : Alike (RowSet u).ixs (RowEnds u) := by
    by_cases settled : RowSettled u
    · rw [rowEnds_settled settled]
      exact ⟨rfl, ⟨by rw [was]; exact nofun, nofun⟩, by rw [was]; rfl, by rw [was]; rfl, by rw [was]; rfl⟩
    · rw [rowEnds_unsettled seating settled]
      exact ⟨rfl, by rw [was]; decide, rfl, rfl, rfl⟩
  rw [decideSeating_eq]
  cases cause : (Row u).2.2 with
  | none => exact decided_commanded seating (.rfl' _)
  | some c => exact (decided_commanded seating (raise_frame _ c)).trans (raise_recast c alike).symm

/-- Table 7-5: the causes of the rows. -/
theorem row_cause {u : State} {c : Cause} (raised : (Row u).2.2 = some c) :
    c = .palletIdentity ∨ c = .recordMissing ∨ c = .palletMissing := by
  unfold Row Decision at raised
  split at raised <;> split at raised
  · split at raised
    · cases raised
    · exact .inl (Option.some.inj raised).symm
  · exact .inr (.inl (Option.some.inj raised).symm)
  · exact .inr (.inr (Option.some.inj raised).symm)
  · cases raised
  · exact .inr (.inl (Option.some.inj raised).symm)

/-- R60: the end of the wait in SEATING and of its command. -/
theorem decided_close {u : State} (seating : u.ixs.state = .seating) (levels : LevelsLegal u) :
    Claims.Decided u u.decideSeating.close := by
  let w := Recast (RowSet u) (RowFixture u) (RowEnds u)
  have on : w.ixs.state ≠ .offline := by
    by_cases settled : RowSettled u
    · rw [show w.ixs = RowEnds u from rfl, rowEnds_settled settled]
      exact nofun
    · rw [show w.ixs = RowEnds u from rfl, rowEnds_unsettled seating settled]
      exact fun e => by cases seating.symm.trans e
  have ends : Follows (Row u).2.2.toList w u.decideSeating.close
      ∧ (∀ x ∈ (Row u).2.2, u.decideSeating.close.har.isPending x = true) ∧ ((Row u).2.2 = none → Leads w u.decideSeating.close) := by
    rw [decideSeating_recast seating]
    cases cause : (Row u).2.2 with
    | none => exact ⟨close_follows w, nofun, fun _ => close_leads w⟩
    | some c =>
      have latched : c.latched = true ∧ 1 ≤ c.floor := by
        rcases row_cause cause with e | e | e <;> rw [e] <;> decide
      refine ⟨raise_close_follows w c latched.1, fun x raised => ?_, nofun⟩
      cases Option.mem_some_iff.1 raised
      exact raise_close_pending w c on (latched.2.trans (levels.2 c).1) levels.1 latched.1
  exact ends

/-- Settles O30: the wait ends with the decision, whose cause does the same after the fixture is commanded as before it. -/
theorem seatingDecision : Obligations.SeatingDecision := by
  intro s h m clock seating step upstream levels
  have on : s.ixs.state ≠ .offline := by rw [seating]; exact nofun
  refine ⟨fun arrives => ?_, fun f forming arrives => ?_⟩
  · let u : State := (Arrived s m false).updatePeer m fun p => { p with lastLowered := some s.indexMade }
    have ends : (Arrived s m false).deliverLowered ⟨m, false, clock⟩ s.indexMade = u.decideSeating :=
      (if_pos rfl).trans (if_pos ⟨seating, step, upstream⟩)
    refine ⟨_, congrArg Host.Outcome.next (observe_delivers arrives ends), ?_⟩
    exact decided_close (u := u) seating levels
  · have other : (JoinWritten s m false f).ixs.state ≠ .ready ∧ (JoinWritten s m false f).ixs.state ≠ .forming := by
      rw [show (JoinWritten s m false f).ixs.state = .seating from seating]
      exact ⟨nofun, nofun⟩
    refine ⟨_, congrArg Host.Outcome.next (observe_arrives arrives), ?_⟩
    have answered : Answered (JoinWritten s m false f) = { JoinWritten s m false f with
        peers := (JoinWritten s m false f).peers.map fun p => { p with ready := false }
        lpt := (JoinWritten s m false f).lpt.enqueue s.joinPayload } := by
      unfold Answered
      dsimp only
      rw [if_neg other.2, if_neg other.1, if_pos (by rw [show (JoinWritten s m false f).ixs.state = .seating from seating]; decide)]
      rfl
    rw [deliverJoin_forming on forming, State.endUpstreamWait, if_pos ⟨seating, step, upstream⟩, answered]
    exact decided_close seating levels

end Sys2Proof.SeatingDecisions
end

section
/-! LOWERED queued, the return commanded and SEATING entered at the end of a command, and the own HANDOVER that does so (R59, R60, R90, R95). -/

set_option Elab.async false

namespace Sys2Proof.LoweringEnd

open Sys2Proof.Machine Sys2Proof.Safety Sys2Proof.Claims Sys2Proof.StepTime Sys2Proof.SectionLine Sys2Proof.MotionProfiles Sys2Proof.ColumnFrames
  Sys2Proof.SeatingDecisions

variable {s : State}

/-- R59, R60: SEATING entered, by role, by the member upstream and by the time since completion. -/
theorem enterSeating_lowered (s : State) : (s.queueFrame (.lowered s.indexMade)).commandReturn.enterSeating =
    let u := LoweredQueued s
    let limit := Timeout s.items.lowerTimeout
    if s.isLoad then { u with ixs := { u.ixs with upstreamTimer := none, lowerExpired := none, state := .working, step := .none } }
    else if s.upstreamLowered then u.decideSeating
    else if limit ≤ s.ixs.sinceCompletion then
      { u with ixs := { u.ixs with upstreamTimer := none, lowerExpired := some .upstream } }.raise .lowerFault
    else { u with ixs := { u.ixs with upstreamTimer := some (limit - s.ixs.sinceCompletion) } } := by
  have entered := seatingEntered_eq s
  rw [commandReturn_eq] at entered ⊢
  rw [← timeout_eq, ← entered]
  rfl

/-- R59, R60: what LOWERED does in LOWERING with the lift DOWN, to the end of the command. -/
theorem loweringEnds_close (s : State) :
    LoweringEnds s ((s.queueFrame (.lowered s.indexMade)).commandReturn.enterSeating).close := by
  have up := upstreamLowered_iff s
  rw [enterSeating_lowered]
  refine ⟨fun load => ?_, fun load lowered levels => ?_, fun load unheard time => ?_, fun load unheard time => ?_⟩
  · rw [if_pos load]
    exact close_leads _
  all_goals rw [if_neg (by rw [load]; exact nofun)]
  · rw [if_pos (up.2 lowered)]
    exact decided_close (u := LoweredQueued s) rfl levels
  all_goals rw [if_neg (mt up.1 unheard)]
  · rw [if_neg (Nat.not_le.2 time)]
    exact close_leads _
  · rw [if_pos time]
    exact ⟨raise_close_follows _ .lowerFault rfl, fun levels => raise_close_pending _ .lowerFault nofun
      ((show 1 ≤ Cause.floor .lowerFault by decide).trans (levels.2 _).1) levels.1 rfl⟩

/-- R59: LOWERING's wait with the lift DOWN ends with the HANDOVER done with, and with nothing else. -/
theorem tryLowered_waiting (lowering : s.ixs.state = .lowering) (step : s.ixs.step = .handover) (down : s.ssv.liftState = .down) :
    ((s.isUnload = true ∨ s.ixs.ownHandover = true ∨ s.handoverLost = true) → LoweringEnds s s.tryLowered.close)
      ∧ (¬(s.isUnload = true ∨ s.ixs.ownHandover = true ∨ s.handoverLost = true) → s.tryLowered = s) := by
  refine ⟨fun done => ?_, fun waits => if_neg fun done => waits done.2.2.2⟩
  have lowered : s.tryLowered = (s.queueFrame (.lowered s.indexMade)).commandReturn.enterSeating :=
    if_pos ⟨lowering, step, down, done⟩
  rw [lowered]
  exact loweringEnds_close s

/-- Settles O35: the own HANDOVER is the last thing that LOWERING waits for, or it waits for the lift. -/
theorem ownHandoverEndsLowering : Obligations.OwnHandoverEndsLowering := by
  intro s h i c m clock o arrives lowering step out a observed
  have taken : a.deliverHandover ⟨m, true, clock⟩ i c = if o.index = i then observed.tryLowered else a :=
    ownHandoverObserved_eq (s := a) out i
  refine ⟨_, congrArg Host.Outcome.next (observe_delivers arrives taken), fun differs => ?_, fun same up => ?_, fun same down => ?_⟩
  · rw [if_neg differs]
    exact close_leads a
  · have waits : observed.tryLowered = observed := if_neg fun done => up done.2.2.1
    rw [if_pos same, waits]
    exact close_leads observed
  · rw [if_pos same]
    exact (tryLowered_waiting (s := observed) lowering step down).1 (.inr (.inl rfl))

end Sys2Proof.LoweringEnd
end

section
/-! The sensors of the shuttle and the lift (R47, R53, R58 to R60, R88, R91, R92). -/

set_option Elab.async false

namespace Sys2Proof.SensorEvents

open Sys2Proof.Machine Sys2Proof.Safety Sys2Proof.Claims Sys2Proof.StepTime Sys2Proof.SectionLine Sys2Proof.MotionProfiles
  Sys2Proof.ColumnFrames Sys2Proof.StopFrames Sys2Proof.LoweringEnd

variable {s : State}

/-! The home sensor (R88). -/

/-- R88: an input that already has its value, or goes off, or goes on outside the creep of a homing run, is taken. -/
theorem exec_homeSensor_taken (on : Bool) (other : ¬(on = true ∧ s.inputs.home = false ∧ s.ssv.homingStage = .creep)) :
    exec (.homeSensorChange on) s = .next { s with inputs := { s.inputs with home := on } } := by
  change (if on == s.inputs.home then _ else _) = _
  by_cases same : on = s.inputs.home
  · rw [if_pos (beq_iff_eq.2 same), same]
  · rw [if_neg (mt beq_iff_eq.1 same)]
    refine if_neg fun edge => ?_
    obtain ⟨goes, creep⟩ := Bool.and_eq_true_iff.1 edge
    refine other ⟨goes, ?_, beq_iff_eq.1 creep⟩
    rw [goes] at same
    exact Bool.eq_false_iff.2 (Ne.symm same)

/-- R88: the home edge in the creep of a homing run. -/
theorem exec_homeSensor_edge {c : BitVec 32} (off : s.inputs.home = false) (creep : s.ssv.homingStage = .creep)
    (capture : s.ssv.homeCapture = some c) : exec (.homeSensorChange true) s = .next { s with
      inputs := { s.inputs with home := true }
      ssv := { s.ssv with encoder := s.ssv.encoder - c, encoderQuiet := 0, homingStage := .edgeRamp }
      pgn := { s.pgn with
        start := s.pgn.start + ((s.ssv.encoder - c).toInt - s.ssv.encoder.toInt)
        setpoint := s.pgn.setpoint + ((s.ssv.encoder - c).toInt - s.ssv.encoder.toInt)
        rampFrom := some (if s.pgn.begun then s.pgn.counter + 2 else 1) } } := by
  have edge : exec (.homeSensorChange true) s = .next ({ s with inputs := { s.inputs with home := true } } : State).homeEdge :=
    (if_neg (by rw [off]; exact nofun)).trans (if_pos (by rw [creep]; rfl))
  rw [edge, State.homeEdge]
  dsimp only
  rw [capture]
  rfl

/-! The lift sensors (R91). -/

theorem exec_liftUp_other (off : s.inputs.liftUp = false) (other : s.ssv.liftState ≠ .rising) :
    exec .liftUpSensorOn s = .next { s with inputs := { s.inputs with liftUp := true } } :=
  (if_neg (by rw [off]; exact nofun)).trans (if_neg other)

/-- R47, R91: the lift UP; RELEASING queues LIFTED. -/
theorem exec_liftUp_rising (off : s.inputs.liftUp = false) (rising : s.ssv.liftState = .rising) :
    exec .liftUpSensorOn s = .next (if s.ixs.state = .releasing
      then { s with inputs := { s.inputs with liftUp := true }, ssv := { s.ssv with liftState := .up }
                    ixs := { s.ixs with state := .liftWait }, lpt := s.lpt.enqueue (.lifted s.ixs.index) }
      else { s with inputs := { s.inputs with liftUp := true }, ssv := { s.ssv with liftState := .up } } : State).close := by
  let d : State := { s with inputs := { s.inputs with liftUp := true }, ssv := { s.ssv with liftState := .up } }
  have reported : exec .liftUpSensorOn s = .next d.liftReported.close :=
    (if_neg (by rw [off]; exact nofun)).trans (if_pos rising)
  refine reported.trans (congrArg (fun u : State => Host.Outcome.next u.close) ?_)
  split
  · rename_i releasing
    exact if_pos ⟨releasing, rfl⟩
  · rename_i other
    exact if_neg fun r => other r.1

/-- R91: the station with the lift DOWN. -/
def LiftDown (s : State) : State :=
  { s with inputs := { s.inputs with liftDown := true }, ssv := { s.ssv with liftState := .down } }

theorem exec_liftDown_other (off : s.inputs.liftDown = false) (other : s.ssv.liftState ≠ .falling) :
    exec .liftDownSensorOn s = .next { s with inputs := { s.inputs with liftDown := true } } :=
  (if_neg (by rw [off]; exact nofun)).trans (if_neg other)

theorem exec_liftDown_falling (off : s.inputs.liftDown = false) (falling : s.ssv.liftState = .falling) :
    exec .liftDownSensorOn s = .next (LiftDown s).liftDownReported.close :=
  (if_neg (by rw [off]; exact nofun)).trans (if_pos falling)

/-- R53, R58, R59: who waits for the lift DOWN. -/
theorem liftDownReported_lifts (state : s.ixs.state = .abandoning) (step : s.ixs.step = .abandonLift) :
    s.liftDownReported = Reseated s := by
  rw [← abandonSeat_eq state]
  unfold State.liftDownReported
  rw [state, step]

theorem liftDownReported_lowers (state : s.ixs.state = .lowering) (step : s.ixs.step = .liftDown) : s.liftDownReported
    = ({ s with ixs := { s.ixs with step := .handover, lowerExpired := none, loweringTimer := none } } : State).tryLowered := by
  unfold State.liftDownReported
  rw [state, step]
  rfl

theorem liftDownReported_tries (lift : ¬(s.ixs.state = .abandoning ∧ s.ixs.step = .abandonLift))
    (down : ¬(s.ixs.state = .lowering ∧ s.ixs.step = .liftDown)) : s.liftDownReported = s.tryLowered := by
  unfold State.liftDownReported
  split
  · rename_i state step
    exact absurd ⟨state, step⟩ lift
  · rename_i state step
    exact absurd ⟨state, step⟩ down
  · rfl

/-- R59: the HANDOVER of the index just made is LOST. -/
theorem handoverLost_iff (s : State) :
    s.handoverLost = true ↔ ∃ o, s.rst.outgoing = some o ∧ o.index = s.indexMade ∧ o.state = .lost := by
  unfold State.handoverLost
  cases s.rst.outgoing <;> simp

/-- R59: LOWERING with the lift DOWN waits for its HANDOVER alone. -/
theorem lowering_waits (state : s.ixs.state = .lowering) (step : s.ixs.step = .handover) (down : s.ssv.liftState = .down) :
    let done := s.isUnload = true ∨ s.ixs.ownHandover = true
      ∨ ∃ o, s.rst.outgoing = some o ∧ o.index = s.indexMade ∧ o.state = .lost
    (done → LoweringEnds s s.tryLowered.close) ∧ (¬done → Leads s s.tryLowered.close) := by
  obtain ⟨ends, waits⟩ := tryLowered_waiting state step down
  rw [handoverLost_iff] at ends waits
  refine ⟨ends, fun other => ?_⟩
  rw [waits other]
  exact close_leads s

/-- R91: a lift sensor lost. -/
theorem exec_liftSensorOff (up : Bool) (on : (if up then s.inputs.liftUp else s.inputs.liftDown) = true) :
    exec (.liftSensorOff up) s = .next { s with
      inputs := if up then { s.inputs with liftUp := false } else { s.inputs with liftDown := false }
      ssv := { s.ssv with liftState :=
        if s.ssv.liftState = (if up then .up else .down) then (if s.ssv.lift then .rising else .falling)
        else s.ssv.liftState } } := by
  cases up
  · let off (x : LiftState) : State := { s with inputs := { s.inputs with liftDown := false }, ssv := { s.ssv with liftState := x } }
    have changes : ({ s.inputs with liftDown := false } : Inputs) ≠ s.inputs :=
      fun e => by cases on.symm.trans (congrArg Inputs.liftDown e).symm
    refine (if_neg changes).trans ?_
    by_cases last : s.ssv.liftState = .down
    · exact (if_pos last).trans (congrArg (fun x => Host.Outcome.next (off x)) (if_pos last).symm)
    · exact (if_neg last).trans (congrArg (fun x => Host.Outcome.next (off x)) (if_neg last).symm)
  · let off (x : LiftState) : State := { s with inputs := { s.inputs with liftUp := false }, ssv := { s.ssv with liftState := x } }
    have changes : ({ s.inputs with liftUp := false } : Inputs) ≠ s.inputs :=
      fun e => by cases on.symm.trans (congrArg Inputs.liftUp e).symm
    refine (if_neg changes).trans ?_
    by_cases last : s.ssv.liftState = .up
    · exact (if_pos last).trans (congrArg (fun x => Host.Outcome.next (off x)) (if_pos last).symm)
    · exact (if_neg last).trans (congrArg (fun x => Host.Outcome.next (off x)) (if_neg last).symm)

/-- Settles O53: each sensor by the lemma about it; the lift DOWN by who waits for it. -/
theorem motionSensors : Obligations.MotionSensors := by
  intro s
  refine ⟨fun d => rfl, fun d => rfl, fun on other => exec_homeSensor_taken on other,
    fun c off creep capture => exec_homeSensor_edge off creep capture, fun off => ?_, fun off => ?_,
    fun up on => exec_liftSensorOff up on⟩
  · by_cases rising : s.ssv.liftState = .rising
    · exact ⟨_, exec_liftUp_rising off rising, fun other => absurd rising other, fun _ => close_leads _⟩
    · exact ⟨_, exec_liftUp_other off rising, fun _ => rfl, fun r => absurd r rising⟩
  · by_cases falling : s.ssv.liftState = .falling
    · refine ⟨_, exec_liftDown_falling off falling, fun other => absurd falling other, fun _ =>
        ⟨fun other idle => ?_, fun state step => ?_,
        fun state step => ?_, fun state step => ?_, fun state step => ?_, fun state lift handover => ?_⟩⟩
      · rw [liftDownReported_tries (s := LiftDown s) (fun x => other x.1) fun x => idle x.1,
          tryLowered_unawaited (s := LiftDown s) fun x => idle x.1]
        exact close_leads _
      · have waits : (LiftDown s).ixs.state ≠ .lowering := fun x => by cases state.symm.trans x
        rw [liftDownReported_tries (s := LiftDown s) (fun x => step x.2) fun x => waits x.1,
          tryLowered_unawaited (s := LiftDown s) fun x => waits x.1]
        exact close_leads _
      · rw [liftDownReported_lifts (s := LiftDown s) state step]
        exact close_leads _
      · let lowered : State := { LiftDown s with
          ixs := { s.ixs with step := .handover, lowerExpired := none, loweringTimer := none } }
        rw [liftDownReported_lowers (s := LiftDown s) state step]
        exact lowering_waits (s := lowered) state rfl rfl
      · have lift : ¬((LiftDown s).ixs.state = .abandoning ∧ (LiftDown s).ixs.step = .abandonLift) :=
          fun x => by cases state.symm.trans x.1
        rw [liftDownReported_tries (s := LiftDown s) lift fun x => by cases step.symm.trans x.2]
        exact lowering_waits (s := LiftDown s) state step rfl
      · rw [liftDownReported_tries (s := LiftDown s) (fun x => by cases state.symm.trans x.1) fun x => lift x.2,
          tryLowered_unawaited (s := LiftDown s) fun x => handover x.2]
        exact close_leads _
    · exact ⟨_, exec_liftDown_other off falling, fun _ => rfl, fun f => absurd f falling⟩

end Sys2Proof.SensorEvents
end

section
/-! The completion of a common profile, and the origin (R54, R57, R58, R71, R75, R77, R119, R123). -/

set_option Elab.async false

namespace Sys2Proof.Origins

open Sys2Proof.Machine Sys2Proof.Safety Sys2Proof.Claims Sys2Proof.StepTime Sys2Proof.SectionLine Sys2Proof.MotionProfiles
  Sys2Proof.FixtureRelease Sys2Proof.FixtureReports Sys2Proof.ResumeRequest

variable {s : State}

/-! Completion (R57, R58, R75, R143). -/

/-- R57, R58, R143: the index completed, with the shuttle and the profile as given. -/
def Completed (s : State) (v : Ssv) (p : Pgn) : State :=
  { s with
    pgn := p, ssv := v, sim := s.sim.shift
    peers := s.peers.map fun p => { p with ready := false, lifted := false, resume := false }
    ixs := { s.ixs with state := .lowering, index := s.ixs.index + 1, origin := none, stopStamp := none
                        step := .inPosition, lowerExpired := none, loweringTimer := some 250000
                        sinceCompletion := 0 } }

theorem clearMarks_eq (s : State) : s.clearReady.clearLifted.clearResume
    = { s with peers := s.peers.map fun p => { p with ready := false, lifted := false, resume := false } } := by
  unfold State.clearResume State.clearLifted State.clearReady State.updatePeers
  simp only [List.map_map]
  rfl

/-- R87, R95: the shuttle at the end of a common profile, or halted from it. -/
def AtEnd (v : Ssv) : Ssv :=
  if v.shuttle = .halted then { v with haltedFrom := some .atEnd } else { v with shuttle := .atEnd }

theorem moveShuttle_atEnd (s : State) : s.moveShuttle .atEnd = { s with ssv := AtEnd s.ssv } := by
  unfold State.moveShuttle AtEnd
  split <;> rfl

/-- R57, R58: a profile completes the index in MOVING; the shuttle restarts where nothing of level 7 is pending. -/
theorem commonCompleted_eq (moving : s.ixs.state = .moving) : s.commonCompleted =
    if s.har.anyPendingAt 7 then Completed s (AtEnd s.ssv) s.pgn else (Completed s (AtEnd s.ssv) s.pgn).restart := by
  unfold State.commonCompleted
  rw [moveShuttle_atEnd, if_pos moving]
  exact congrArg State.enterLowering (clearMarks_eq { s with
    ssv := AtEnd s.ssv, sim := s.sim.shift
    ixs := { s.ixs with index := s.ixs.index + 1, origin := none, stopStamp := none } })

theorem restart_unhalted (running : s.ssv.shuttle ≠ .halted) : s.restart = s := if_pos running

/-- R58, R95: the restart to PITCH of a shuttle halted from AT_END. -/
theorem restart_atEnd (halted : s.ssv.shuttle = .halted) (from_ : s.ssv.haltedFrom = some .atEnd) :
    s.restart = { s with ssv := RestartedToPitch s, pgn := PitchAgain s s.pgn } := by
  unfold State.restart
  rw [if_neg (not_not.2 halted), from_]
  rfl

/-- R57, R58: completion by the shuttle and by what is pending. -/
theorem commonCompleted_cases (moving : s.ixs.state = .moving) :
    (s.ssv.shuttle ≠ .halted → s.commonCompleted = Completed s { s.ssv with shuttle := .atEnd } s.pgn)
      ∧ (s.ssv.shuttle = .halted → s.har.anyPendingAt 7 = true →
        s.commonCompleted = Completed s { s.ssv with haltedFrom := some .atEnd } s.pgn)
      ∧ (s.ssv.shuttle = .halted → s.har.anyPendingAt 7 = false →
        s.commonCompleted = Completed s (RestartedToPitch s) (PitchAgain s s.pgn)) := by
  rw [commonCompleted_eq moving]
  refine ⟨fun running => ?_, fun halted pending => ?_, fun halted clear => ?_⟩
  · have ends : AtEnd s.ssv = { s.ssv with shuttle := .atEnd } := if_neg running
    have stays : (Completed s { s.ssv with shuttle := .atEnd } s.pgn).restart = Completed s { s.ssv with shuttle := .atEnd } s.pgn :=
      restart_unhalted (fun e => nomatch (show ShuttleState.atEnd = .halted from e))
    rw [ends, stays, ite_self]
  · have ends : AtEnd s.ssv = { s.ssv with haltedFrom := some .atEnd } := if_pos halted
    rw [ends, if_pos pending]
  · have ends : AtEnd s.ssv = { s.ssv with haltedFrom := some .atEnd } := if_pos halted
    rw [ends, if_neg (by rw [clear]; exact nofun), 
      restart_atEnd (s := Completed s { s.ssv with haltedFrom := some .atEnd } s.pgn) halted rfl]
    rfl

/-! The origin (R54, R71, R75). -/

/-- R71: the profile from its origin on. -/
def Begun (s : State) : Pgn :=
  { s.pgn with begun := true, stepFrom := none, phase := if s.pgn.phase = .waiting then .running else .ramping }

theorem exec_profileOrigin (common : s.pgn.kind = .forward ∨ s.pgn.kind = .resume)
    (waits : s.pgn.phase = .waiting ∨ s.pgn.phase = .ramping) (begun : s.pgn.begun = false) :
    exec .profileOrigin s = .next (
      let w := if s.pgn.kind = .forward then ({ s with pgn := Begun s } : State).moveRecord else { s with pgn := Begun s }
      if w.pgn.phase = .running ∧ w.pgn.periods = 0 then { w with pgn := w.pgn.complete }.commonCompleted else w).close := by
  have awaits : s.awaitsOrigin = true := by
    unfold State.awaitsOrigin
    rcases common with k | k <;> rcases waits with p | p <;> (rw [k, p, begun]; rfl)
  have phase : (if s.pgn.phase = .waiting then PgnPhase.running else s.pgn.phase)
      = if s.pgn.phase = .waiting then .running else .ramping := by
    rcases waits with p | p
    · rw [p]
      rfl
    · rw [p]
  have reached : exec .profileOrigin s = .next s.reachOrigin.close := if_pos awaits
  rw [reached, State.reachOrigin, if_pos awaits, phase]
  rfl

/-- R75: a profile of some distance, or a ramp, goes on at its origin. -/
theorem begun_runs (runs : 1 ≤ s.pgn.periods ∨ s.pgn.phase = .ramping) :
    ¬((Begun s).phase = .running ∧ (Begun s).periods = 0) := by
  rintro ⟨phase, none⟩
  rcases runs with some_ | ramps
  · exact absurd (show s.pgn.periods = 0 from none) (by omega)
  · exact absurd ((if_neg (by rw [ramps]; exact nofun)).symm.trans phase) nofun

/-- R54, R119, R123: the record moved, with `content`. -/
def RecordMoved (s : State) (content : Option PalletRecord) : State :=
  { s with
    ixs := { s.ixs with ownHandover := false, pendingResult := none }
    rst := { s.rst with
      status := .empty, record := none
      exitQueue := if s.isUnload then s.rst.exitQueue ++ content.toList else s.rst.exitQueue
      outgoing := if s.isUnload then s.rst.outgoing else some ⟨s.ixs.index, content, .queued⟩ }
    lpt := if s.isUnload then s.lpt else s.lpt.enqueue (.handover s.ixs.index content) }

/-- R54, R123: the record moved from a fixture that is OPEN, in a state that does not wait for it. -/
theorem moveRecord_open (opened : s.fxs.state = .open)
    (state : s.ixs.state ≠ .releasing ∧ s.ixs.state ≠ .seating ∧ s.ixs.state ≠ .abandoning) :
    s.moveRecord = RecordMoved s s.recordAtOrigin := by
  let w := RecordMoved s s.recordAtOrigin
  have moved : s.moveRecord = w.keepOpen := by
    unfold State.moveRecord w RecordMoved
    dsimp only
    split <;> rfl
  have opens : Opens w = w.fxs := if_pos (.inl opened)
  have stays : w.fixtureReported = w := fixtureReported_unawaited (fun releasing => absurd releasing state.1) fun waits =>
    waits.elim (fun seating => absurd seating.1 state.2.1) fun abandoning => absurd abandoning.1 state.2.2
  rw [moved, State.keepOpen, openFixture_eq, opens]
  exact stays

/-- R119: the record with the result appended. -/
theorem recordAtOrigin_held {r : PalletRecord} {x : MachResult} (held : s.rst.status = .held) (record : s.rst.record = some r)
    (result : s.ixs.pendingResult = some x) : s.recordAtOrigin = some { r with
      ops := (if r.ops.length < 16 then r.ops else r.ops.drop (r.ops.length - 15)) ++ [⟨s.stationNo, x⟩]
      truncated := r.truncated || decide (16 ≤ r.ops.length)
      verdict := if r.verdict.code < (resultVerdict x).code then resultVerdict x else r.verdict } := by
  have ops : appendOp r.ops ⟨s.stationNo, x⟩
      = (if r.ops.length < 16 then r.ops else r.ops.drop (r.ops.length - 15)) ++ [⟨s.stationNo, x⟩] := by
    unfold appendOp
    rw [show Config.opsCapacity = 16 from rfl, show r.ops.length + 1 - 16 = r.ops.length - 15 by omega]
    by_cases full : 16 ≤ r.ops.length
    · rw [if_pos full, if_neg (Nat.not_lt.2 full)]
    · rw [if_neg full, if_pos (Nat.lt_of_not_le full)]
  unfold State.recordAtOrigin
  rw [held, record, result, ← ops]
  rfl

theorem recordAtOrigin_empty (empty : s.rst.status = .empty) : s.recordAtOrigin = none := by
  unfold State.recordAtOrigin
  rw [empty]

theorem leads_pgn {u t : State} (leads : Leads u t) (settled : CausesSettled u) : t.pgn = u.pgn := by
  have becomes := leads.2 settled
  unfold Becomes at becomes
  rw [becomes]

/-- Settles O46: what the origin leaves runs on, completes an index of no distance or moves the record. -/
theorem originMovesRecord : Obligations.OriginMovesRecord := by
  intro s r x waits begun g h completes out
  refine ⟨fun resume runs => ?_, fun resume none phase moving => ?_, fun forward runs opened => ?_⟩
  · have other : ¬s.pgn.kind = .forward := by rw [resume]; exact nofun
    have leads := close_leads { s with pgn := g }
    refine ⟨_, ?_, leads, fun settled => leads_pgn leads (settled_congr settled rfl rfl)⟩
    rw [exec_profileOrigin (.inr resume) waits begun, if_neg other]
    exact congrArg (fun u : State => Host.Outcome.next u.close) (if_neg (begun_runs runs))
  · let w : State := { s with pgn := h }
    obtain ⟨running, pending, clear⟩ := commonCompleted_cases (s := w) moving
    have other : ¬s.pgn.kind = .forward := by rw [resume]; exact nofun
    have starts : (Begun s).phase = .running ∧ (Begun s).periods = 0 := ⟨if_pos phase, none⟩
    have ends : (Begun s).complete = h := by
      have common : (Begun s).kind.common = true := by rw [show (Begun s).kind = .resume from resume]; rfl
      unfold Pgn.complete
      rw [if_pos common]
      rfl
    have completed : exec .profileOrigin s = .next w.commonCompleted.close := by
      rw [exec_profileOrigin (.inr resume) waits begun, if_neg other]
      exact congrArg (fun u : State => Host.Outcome.next u.close)
        ((if_pos starts).trans (congrArg (fun p => State.commonCompleted { s with pgn := p }) ends))
    refine ⟨fun other => ⟨_, completed, ?_⟩, fun halted seven => ⟨_, completed, ?_⟩, fun halted none => ⟨_, completed, ?_⟩⟩
    · rw [running other]
      exact close_leads _
    · rw [pending halted seven]
      exact close_leads _
    · rw [clear halted none]
      exact close_leads _
  · intro u state
    have moved : exec .profileOrigin s = .next (u s.recordAtOrigin).close := by
      rw [exec_profileOrigin (.inl forward) waits begun, if_pos forward,
        moveRecord_open (s := { s with pgn := Begun s }) opened state]
      exact congrArg (fun u : State => Host.Outcome.next u.close) (if_neg (begun_runs runs))
    refine ⟨_, moved, fun held record result => ?_, fun empty => ?_⟩
    · rw [recordAtOrigin_held held record result]
      exact ⟨close_leads _, leads_pgn (close_leads _)⟩
    · rw [recordAtOrigin_empty empty]
      exact ⟨close_leads _, leads_pgn (close_leads _)⟩

end Sys2Proof.Origins
end

section
/-! A shuttle that a cause which is not judged any more has halted, to the end of the command (R94, R95, R148). -/

set_option Elab.async false

namespace Sys2Proof.Completions

open Sys2Proof.Machine Sys2Proof.Safety Sys2Proof.Claims Sys2Proof.SectionLine Sys2Proof.StepTime Sys2Proof.MotionProfiles

variable {s t u : State} {h : Har} {c d : Cause}

/-! The fields of the drive that no cause changes. -/

/-- The drive without what causes and the restart change of it (R94, R95). -/
def Outer (v : Ssv) : Ssv :=
  { v with shuttle := .unhomed, haltedFrom := none, drive := false, repositionTarget := none, repositionUse := none
           homingTimer := none, homeCheckTimer := none, homeCheck := false, homingStage := .none }

theorem moves_outer (moves : HoldMoves s t) : Outer t.ssv = Outer s.ssv := (congrArg Outer moves.ssv).trans rfl

theorem follows_outer {l : List Cause} (follows : Follows l s t) : Outer t.ssv = Outer s.ssv := (congrArg Outer follows.ssv).trans rfl

theorem close_outer (s : State) : Outer s.close.ssv = Outer s.ssv := follows_outer (close_follows s)

/-! A pending cause of level 7, however many causes there are. -/

theorem entry_of_level (level : h.level c ≠ 0) : c.number < h.causes.length := by
  by_contra off
  refine level ?_
  unfold Har.level
  rw [List.getD_eq_getElem?_getD, List.getElem?_eq_none (Nat.le_of_not_lt off)]
  rfl

theorem anyPendingAt_entry (seven : h.level c = 7) (pending : h.isPending c = true) : h.anyPendingAt 7 = true := by
  have entry : c.number < h.causes.length := entry_of_level (by rw [seven]; decide)
  unfold Har.anyPendingAt
  unfold Har.level Har.isPending at *
  rw [List.getD_eq_getElem?_getD, List.getElem?_eq_getElem entry, Option.getD_some] at seven pending
  exact List.any_eq_true.2 ⟨_, List.getElem_mem entry, by rw [seven, pending]; rfl⟩

theorem setPending_pends (level : h.level c ≠ 0) (b : Bool) : (h.setPending c b).isPending c = b := by
  unfold Har.setPending Har.isPending
  simp only [List.getD_eq_getElem?_getD, List.getElem?_set, if_true]
  rw [if_pos (entry_of_level level)]
  rfl

theorem raise_pends (taken : ¬(s.offline ∨ s.har.level c = 0 ∨ s.har.isPending c)) : (s.raise c).har.isPending c = true := by
  unfold Har.isPending
  rw [raise_causes s c taken]
  exact setPending_pends (fun zero => taken (.inr (.inl zero))) true

theorem raise_keepsPending (s : State) (c : Cause) (pending : s.har.isPending d = true) : (s.raise c).har.isPending d = true := by
  by_cases same : d = c
  · rw [raise_ignored s c (.inr (.inr (same ▸ pending)))]
    exact pending
  · exact ((raise_same s c).pending d same).trans pending

/-! The shuttle through the self-clearing causes (R148). -/

/-- R94: a HALTED shuttle is held by a pending cause of level 7 that is none of these. -/
def HeldBeyond (l : List Cause) (s : State) : Prop :=
  s.ssv.shuttle = .halted → ∃ c, c ∉ l ∧ s.har.level c = 7 ∧ s.har.isPending c = true

/-- R94: a raising leaves a common profile, and what it halts it holds. -/
theorem raise_common (c : Cause) (common : s.pgn.kind.localKind = false) : (s.raise c).pgn = s.pgn
    ∧ ((s.raise c).ssv.shuttle = .halted → s.ssv.shuttle ≠ .halted → s.har.level c = 7 ∧ (s.raise c).har.isPending c = true) := by
  by_cases taken : s.offline ∨ s.har.level c = 0 ∨ s.har.isPending c
  · rw [raise_ignored s c taken]
    exact ⟨rfl, fun halted running => absurd halted running⟩
  · obtain ⟨ssv, pgn⟩ := raise_drive taken
    have profile : s.dropDrive.pgn = s.pgn := by
      unfold State.dropDrive
      split
      · rfl
      · exact halt_common common
    by_cases seven : s.har.level c = 7
    · rw [pgn, if_pos seven]
      exact ⟨profile, fun _ _ => ⟨seven, raise_pends taken⟩⟩
    · rw [pgn, ssv, if_neg seven]
      exact ⟨rfl, fun halted running => absurd halted running⟩

/-- R95: no restart while a cause that stays pending holds the shuttle. -/
theorem unpend_held {l : List Cause} (held : HeldBeyond (d :: l) s) :
    (s.unpend d).ssv = s.ssv ∧ (s.unpend d).pgn = s.pgn := by
  by_cases pending : s.har.isPending d = true
  · let u : State := { s with har := s.har.setPending d false }.announce
    have ended : s.unpend d = if s.har.level d = 7 ∧ !u.har.anyPendingAt 7 then u.restart else u := if_pos pending
    have kept : u.ssv = s.ssv ∧ u.pgn = s.pgn := by
      unfold u
      rw [announce_ssv, announce_pgn]
      exact ⟨rfl, rfl⟩
    rw [ended]
    split
    · rename_i last
      have running : u.ssv.shuttle ≠ .halted := fun halted => by
        rw [kept.1] at halted
        obtain ⟨c, other, seven, still⟩ := held halted
        have differs : c ≠ d := fun e => other (e ▸ List.mem_cons_self)
        have one : (s.har.setPending d false).anyPendingAt 7 = true :=
          anyPendingAt_entry (c := c) ((setPending_level _ _ _ _).trans seven) ((setPending_other _ differs false).trans still)
        have causes : u.har.causes = (s.har.setPending d false).causes := by
          unfold u
          rw [announce_causes]
        have any : u.har.anyPendingAt 7 = true := by rw [Har.anyPendingAt, causes]; exact one
        rw [any] at last
        cases last.2
      rw [show u.restart = u from if_pos running]
      exact kept
    · exact kept
  · rw [unpend_idle s d (Bool.eq_false_iff.2 pending)]
    exact ⟨rfl, rfl⟩

theorem refreshCause_held {l : List Cause} (fresh : d ∉ l) (held : HeldBeyond (d :: l) s) (common : s.pgn.kind.localKind = false) :
    HeldBeyond l (s.refreshCause d) ∧ (s.refreshCause d).pgn = s.pgn := by
  unfold State.refreshCause
  split
  · obtain ⟨pgn, halts⟩ := raise_common d common
    refine ⟨fun halted => ?_, pgn⟩
    by_cases was : s.ssv.shuttle = .halted
    · obtain ⟨c, other, seven, pending⟩ := held was
      exact ⟨c, fun i => other (List.mem_cons_of_mem _ i), ((raise_same s d).level c).trans seven, raise_keepsPending s d pending⟩
    · obtain ⟨seven, pending⟩ := halts halted was
      exact ⟨d, fresh, ((raise_same s d).level d).trans seven, pending⟩
  · obtain ⟨ssv, pgn⟩ := unpend_held held
    refine ⟨fun halted => ?_, pgn⟩
    rw [ssv] at halted
    obtain ⟨c, other, seven, pending⟩ := held halted
    have differs : c ≠ d := fun e => other (e ▸ List.mem_cons_self)
    have same := unpend_same s d
    exact ⟨c, fun i => other (List.mem_cons_of_mem _ i), (same.level c).trans seven, (same.pending c differs).trans pending⟩

theorem refreshFold_common (l : List Cause) (distinct : l.Nodup) (s : State) (held : HeldBeyond l s)
    (common : s.pgn.kind.localKind = false) : (l.foldl State.refreshCause s).pgn = s.pgn := by
  induction l generalizing s with
  | nil => rfl
  | cons d l ih =>
    obtain ⟨fresh, rest⟩ := List.nodup_cons.1 distinct
    obtain ⟨still, pgn⟩ := refreshCause_held fresh held common
    exact (ih rest _ still (by rw [pgn]; exact common)).trans pgn

/-- R94, R95: the end of a command leaves a common profile of a shuttle that a latched cause holds or that is not HALTED. -/
theorem close_common (held : s.ssv.shuttle = .halted → ∃ c : Cause, c.latched = true ∧ s.har.level c = 7 ∧ s.har.isPending c = true)
    (common : s.pgn.kind.localKind = false) : s.close.pgn = s.pgn := by
  have beyond : HeldBeyond Cause.selfClearing s := fun halted => by
    obtain ⟨c, latched, seven, pending⟩ := held halted
    exact ⟨c, latched_not_selfClearing latched, seven, pending⟩
  have pins (u : State) : u.refreshPins.pgn = u.pgn := rfl
  have fold := refreshFold_common Cause.selfClearing (by decide) s beyond common
  rw [State.close, pins]
  exact fold

end Sys2Proof.Completions
end

section
/-! The last period of a common profile (R57, R58, R74, R75, R87, R93 to R95, R97, R98, R143). -/

set_option Elab.async false

namespace Sys2Proof.Completions

open Sys2Proof.Machine Sys2Proof.Safety Sys2Proof.Claims Sys2Proof.SectionLine Sys2Proof.StepTime Sys2Proof.MotionProfiles
  Sys2Proof.ResumeRequest Sys2Proof.StopRamps Sys2Proof.Origins

variable {s t u w r : State} {g : Pgn} {v : Ssv} {p : Pgn} {x : Ixs} {sent : Prop}

/-! The word and POSITION of a period, before its outcome (R74, R93, R97, R99). -/

/-- R97: the word of a period finds the shuttle where it is to be, or waits, or raises FOLLOWING_ERROR. -/
theorem advanced_cases (s : State) (g : Pgn) :
    (Advanced s g = GivenOut s g ∧ (s.ssv.wordAge < 40 ∨ Follows97 s g.setpoint))
      ∨ (Advanced s g = Lost s g ∧ 40 ≤ s.ssv.wordAge ∧ ¬Follows97 s g.setpoint) := by
  by_cases busy : s.ssv.wordAge < 40
  · exact .inl ⟨advanced_waits busy, .inl busy⟩
  · have free := Nat.not_lt.1 busy
    by_cases follows : Follows97 s g.setpoint
    · exact .inl ⟨advanced_follows free follows, .inr follows⟩
    · exact .inr ⟨advanced_exceeds free follows, free, follows⟩

/-- R93, R97, R99: what the word and POSITION of a period leave, whatever the word finds. -/
structure WordGiven (s : State) (g : Pgn) (w : State) : Prop where
  frame : HoldFrame s w
  causes : SameCauses (· ≠ .followingError) s.har w.har
  timer : w.lpt.foreignTimer = s.lpt.foreignTimer
  outer : Outer w.ssv = Outer (GivenOut s g).ssv
  pgn : w.pgn = g
  held : s.ssv.shuttle ≠ .halted → w.ssv.shuttle = .halted →
    w.ssv.drive = false ∧ w.har.level .followingError = 7 ∧ w.har.isPending .followingError = true
  running : s.ssv.shuttle ≠ .halted → w.ssv.shuttle ≠ .halted → w.ssv = (GivenOut s g).ssv
  halted : s.ssv.shuttle = .halted → w.ssv.shuttle = .halted ∧ w.ssv.homeCheck = s.ssv.homeCheck
  pending : s.har.anyPendingAt 7 = true → w.har.anyPendingAt 7 = true
  position : s.ixs.state ≠ .ready → g.counter % 8 = 0 → ∃ f ∈ w.lpt.queue, f.payload = PositionOf s g w.ssv.followingError

theorem givenOut_given (s : State) (g : Pgn) : WordGiven s g (GivenOut s g) := by
  have judged := givenOut_judged s g
  refine ⟨.of_ixs rfl rfl rfl rfl rfl rfl rfl rfl rfl rfl rfl rfl, .rfl' _ _, judged.timer, rfl, rfl, fun running halted => ?_,
    fun _ _ => rfl, fun halted => ⟨?_, givenOut_field Ssv.homeCheck (fun _ _ _ _ => rfl) g⟩, id, fun _ eighth => ?_⟩
  · rw [givenOut_shuttle] at halted
    exact absurd halted running
  · rw [givenOut_shuttle]
    exact halted
  · unfold GivenOut
    dsimp only
    rw [if_pos eighth]
    exact ⟨_, mem_insertFrame_self _ _, rfl⟩

/-- R94: what a raising does to the drive. -/
theorem raise_halts (c : Cause) : (s.ssv.shuttle ≠ .halted → ((s.raise c).ssv = s.ssv ∨ ((s.raise c).ssv = HaltedDrive s.ssv
      ∧ (s.raise c).har.level c = 7 ∧ (s.raise c).har.isPending c = true)))
    ∧ (s.ssv.shuttle = .halted → (s.raise c).ssv.shuttle = .halted ∧ (s.raise c).ssv.homeCheck = s.ssv.homeCheck) := by
  by_cases taken : s.offline ∨ s.har.level c = 0 ∨ s.har.isPending c
  · rw [raise_ignored s c taken]
    exact ⟨fun _ => .inl rfl, fun halted => ⟨halted, rfl⟩⟩
  · obtain ⟨ssv, -⟩ := raise_drive taken
    by_cases seven : s.har.level c = 7
    · rw [ssv, if_pos seven]
      refine ⟨fun running => .inr ⟨(dropDrive_free running).1, ((raise_same s c).level c).trans seven, raise_pends taken⟩, fun halted => ?_⟩
      rw [State.dropDrive, if_pos halted]
      exact ⟨halted, rfl⟩
    · rw [ssv, if_neg seven]
      exact ⟨fun _ => .inl rfl, fun halted => ⟨halted, rfl⟩⟩

/-- R95: a raising ends no cause. -/
theorem raise_anyPending (c : Cause) (any : s.har.anyPendingAt 7 = true) : (s.raise c).har.anyPendingAt 7 = true := by
  by_cases taken : s.offline ∨ s.har.level c = 0 ∨ s.har.isPending c
  · rw [raise_ignored s c taken]
    exact any
  · obtain ⟨e, entry, at_⟩ := List.any_eq_true.1 any
    obtain ⟨i, short, rfl⟩ := List.mem_iff_getElem.1 entry
    unfold Har.anyPendingAt
    rw [raise_causes s c taken]
    have other : c.number ≠ i := fun own => by
      refine taken (.inr (.inr ?_))
      unfold Har.isPending
      rw [List.getD_eq_getElem?_getD, own, List.getElem?_eq_getElem short, Option.getD_some]
      exact (Bool.and_eq_true_iff.1 at_).1
    have kept : (s.har.setPending c true).causes[i]? = some s.har.causes[i] := by
      unfold Har.setPending
      rw [List.getElem?_set_ne other, List.getElem?_eq_getElem short]
    exact List.any_eq_true.2 ⟨_, List.mem_of_getElem? kept, at_⟩

theorem lost_given (free : 40 ≤ s.ssv.wordAge) (common : g.kind.localKind = false) : WordGiven s g (Lost s g) := by
  let u := (WordSent s g).raise .followingError
  have queued : Lost s g = { u with
      lpt := if u.pgn.counter % 8 = 0 then u.lpt.enqueue (PositionOf u u.pgn u.ssv.followingError) else u.lpt } := reportPosition_eq u
  have given : (WordSent s g).ssv = (GivenOut s g).ssv := (if_pos free).symm
  have pgn : u.pgn = g := (raise_common (s := WordSent s g) .followingError common).1
  obtain ⟨runs, stays⟩ := raise_halts (s := WordSent s g) .followingError
  rw [given] at runs
  have timer : (Lost s g).lpt.foreignTimer = u.lpt.foreignTimer := by
    rw [queued]
    dsimp only
    split <;> rfl
  have link : u.lpt.foreignTimer = s.lpt.foreignTimer := by
    rw [(raise_moves (WordSent s g) .followingError).link]
    rfl
  refine ⟨lost_frame s g, lost_same s g, timer.trans link, ?_, ?_, fun running halted => ?_, fun running still => ?_, fun halted => ?_,
    fun any => ?_, fun unready eighth => ?_⟩
  all_goals rw [queued]
  · exact (moves_outer (raise_moves (WordSent s g) .followingError)).trans (congrArg Outer given)
  · exact pgn
  · rw [queued] at halted
    rcases runs (by rw [givenOut_shuttle]; exact running) with same | ⟨drive, seven, pending⟩
    · rw [show ({ u with lpt := _ } : State).ssv = u.ssv from rfl, same, givenOut_shuttle] at halted
      exact absurd halted running
    · exact ⟨by rw [drive]; rfl, seven, pending⟩
  · rw [queued] at still
    rcases runs (by rw [givenOut_shuttle]; exact running) with same | ⟨drive, -, -⟩
    · exact same
    · exact absurd (congrArg Ssv.shuttle drive) still
  · exact stays halted
  · exact raise_anyPending (s := WordSent s g) .followingError any
  · have index : u.ixs.index = s.ixs.index := congrArg Ixs.index (raise_ixs (s := WordSent s g) .followingError unready)
    have payload (e : Int) : PositionOf u u.pgn e = PositionOf s g e := by
      rw [PositionOf, index, pgn]
      rfl
    rw [show (if u.pgn.counter % 8 = 0 then u.lpt.enqueue (PositionOf u u.pgn u.ssv.followingError) else u.lpt)
      = u.lpt.enqueue (PositionOf s g u.ssv.followingError) from by rw [payload, pgn, if_pos eighth]]
    exact ⟨_, mem_insertFrame_self _ _, rfl⟩

/-! The outcome and the reports of the word (R57, R58, R90, R98). -/

/-- R58, R90: `r` is what a word that passed or did not pass the home check of `u` has made of `b`. -/
structure Reported (u b r : State) : Prop where
  form : r = { b with ssv := r.ssv }
  outer : Outer r.ssv = Outer b.ssv
  unchecked : ¬PassesNow u → r.ssv = b.ssv

theorem Reported.rfl' (u b : State) : Reported u b b := ⟨rfl, rfl, fun _ => rfl⟩

theorem passHomeCheck_reported (b : State) (passes : PassesNow u) : Reported u b b.passHomeCheck := by
  have moved : b.passHomeCheck = ({ b with ssv := b.ssv.endHoming } : State).moveShuttle .atHome := rfl
  rcases moveShuttle_cases { b with ssv := b.ssv.endHoming } .atHome with ⟨-, e⟩ | ⟨-, e⟩ <;> rw [moved, e]
  · exact ⟨rfl, rfl, fun no => absurd passes no⟩
  · exact ⟨rfl, rfl, fun no => absurd passes no⟩

/-- R58, R90: in LOWERING a word lowers the pallet, and then tests the home check. -/
theorem reportWord_lowering [DecidablePred PassesNow] (lowering : u.ixs.state = .lowering) (lift : u.ssv.liftState ≠ .down) :
    (LowersNow u → u.reportWord = if PassesNow u then (PalletLowered u).passHomeCheck else PalletLowered u)
      ∧ (¬LowersNow u → u.reportWord = if PassesNow u then u.passHomeCheck else u) := by
  classical
  have offers : ¬∃ pos, OffersNow u pos := fun ⟨_, h⟩ => by cases lowering.symm.trans h.1
  have offers' : ¬∃ pos, OffersNow (PalletLowered u) pos := fun ⟨_, h⟩ => by cases lowering.symm.trans h.1
  have passes : PassesNow (PalletLowered u) ↔ PassesNow u := Iff.rfl
  rw [reportWord_eq]
  refine ⟨fun lowers => ?_, fun stays => ?_⟩
  · simp only [if_pos lowers, lowerPallet_eq lift, if_neg offers', passes]
  · simp only [if_neg stays, if_neg offers]

theorem passHomeCheck_ite_reported [Decidable (PassesNow u)] (b : State) :
    Reported u b (if PassesNow u then b.passHomeCheck else b) := by
  split
  · exact passHomeCheck_reported b ‹_›
  · exact .rfl' u b

theorem outer_lift {v w : Ssv} (h : Outer v = Outer w) : v.lift = w.lift ∧ v.liftState = w.liftState := by
  have lift := congrArg Ssv.lift h
  have state := congrArg Ssv.liftState h
  exact ⟨lift, state⟩

/-- R57, R58, R87, R143: the index completed from `w`, with the reports of a word that has been sent (`sent`). -/
structure IndexEnded (sent : Prop) (w r : State) : Prop where
  form : r = { w with
    pgn := r.pgn, ssv := r.ssv, ixs := r.ixs, sim := w.sim.shift
    peers := w.peers.map fun p => { p with ready := false, lifted := false, resume := false } }
  ixs : r.ixs = { w.ixs with
    state := .lowering, index := w.ixs.index + 1, origin := none, stopStamp := none, step := r.ixs.step
    lowerExpired := none, loweringTimer := r.ixs.loweringTimer, sinceCompletion := 0 }
  outer : Outer r.ssv = Outer { w.ssv with lift := r.ssv.lift, liftState := r.ssv.liftState }
  lowers : sent → w.ssv.shuttle ≠ .halted → Near w → r.ixs.step = .liftDown
    ∧ r.ixs.loweringTimer = some (Timeout w.items.lowerTimeout) ∧ r.ssv.lift = false ∧ r.ssv.liftState = .falling
  stays : ¬(sent ∧ w.ssv.shuttle ≠ .halted ∧ Near w) → r.ixs.step = .inPosition
    ∧ r.ixs.loweringTimer = some 250000 ∧ r.ssv.lift = w.ssv.lift ∧ r.ssv.liftState = w.ssv.liftState
  profile : w.ssv.shuttle ≠ .halted ∨ w.har.anyPendingAt 7 = true → r.pgn = w.pgn
  checked : w.ssv.shuttle ≠ .halted → sent → PassesNow w → r.ssv.shuttle = .atHome
  running : w.ssv.shuttle ≠ .halted → ¬(sent ∧ PassesNow w) → r.ssv.shuttle = .atEnd
  held : w.ssv.shuttle = .halted → w.har.anyPendingAt 7 = true → w.ssv.homeCheck = false →
    r.ssv = { w.ssv with haltedFrom := some .atEnd }
  again : w.ssv.shuttle = .halted → w.har.anyPendingAt 7 = false → w.ssv.homeCheck = false →
    r.ssv = RestartedToPitch w ∧ r.pgn = PitchAgain w w.pgn

/-- R57, R95: the outcome in a HALTED shuttle, with no report or with the home check. -/
theorem halted_ended {sent : Prop} (moving : w.ixs.state = .moving) (halted : w.ssv.shuttle = .halted)
    (reported : Reported w.commonCompleted w.commonCompleted r) : IndexEnded sent w r := by
  obtain ⟨-, pending, clear⟩ := commonCompleted_cases moving
  have running {q : Prop} (free : w.ssv.shuttle ≠ .halted) : q := absurd halted free
  obtain ⟨form, outer, unchecked⟩ := reported
  cases any : w.har.anyPendingAt 7
  · rw [clear halted any] at form outer unchecked
    have lift : r.ssv.lift = w.ssv.lift ∧ r.ssv.liftState = w.ssv.liftState := outer_lift outer
    rw [form]
    refine ⟨rfl, rfl, ?_, fun _ free => running free, fun _ => ⟨rfl, rfl, lift.1, lift.2⟩, ?_, fun free => running free,
      fun free => running free, fun _ yes => (by cases any.symm.trans yes), fun _ _ check => ⟨unchecked ?_, rfl⟩⟩
    · rw [lift.1, lift.2]
      exact outer
    · rintro (free | yes)
      · exact running free
      · cases any.symm.trans yes
    · exact fun passes => by cases check.symm.trans passes.1
  · rw [pending halted any] at form outer unchecked
    have lift : r.ssv.lift = w.ssv.lift ∧ r.ssv.liftState = w.ssv.liftState := outer_lift outer
    rw [form]
    refine ⟨rfl, rfl, ?_, fun _ free => running free, fun _ => ⟨rfl, rfl, lift.1, lift.2⟩, fun _ => rfl, fun free => running free,
      fun free => running free, fun _ _ check => unchecked ?_, fun _ no => (by cases any.symm.trans no)⟩
    · rw [lift.1, lift.2]
      exact outer
    · exact fun passes => by cases check.symm.trans passes.1

/-- R57: the outcome alone, a word still being sent. -/
theorem commonCompleted_ended (moving : w.ixs.state = .moving) : IndexEnded False w w.commonCompleted := by
  by_cases halted : w.ssv.shuttle = .halted
  · exact halted_ended moving halted (.rfl' _ _)
  · rw [(commonCompleted_cases moving).1 halted]
    exact ⟨rfl, rfl, rfl, nofun, fun _ => ⟨rfl, rfl, rfl, rfl⟩, fun _ => rfl, fun _ => nofun, fun _ _ => rfl,
      fun yes => absurd yes halted, fun yes => absurd yes halted⟩

theorem commonCompleted_away (moving : w.ixs.state = .moving) (halted : w.ssv.shuttle = .halted) :
    w.commonCompleted.ssv.shuttle ≠ .atEnd := by
  obtain ⟨-, pending, clear⟩ := commonCompleted_cases moving
  cases any : w.har.anyPendingAt 7
  · rw [clear halted any]
    exact fun e => nomatch (show ShuttleState.repositioning = .atEnd from e)
  · rw [pending halted any]
    exact fun e => by cases halted.symm.trans e

/-- R57, R58, R90: the outcome and the reports of the word. -/
theorem reportWord_ended (moving : w.ixs.state = .moving) (up : w.ssv.liftState = .up) : IndexEnded True w w.commonCompleted.reportWord := by
  classical
  have ended := commonCompleted_ended moving
  have lift : w.commonCompleted.ssv.liftState ≠ .down := by
    rw [(ended.stays nofun).2.2.2, up]
    exact nofun
  obtain ⟨falls, stays⟩ := reportWord_lowering (by rw [ended.ixs]) lift
  by_cases halted : w.ssv.shuttle = .halted
  · rw [stays fun lowers => commonCompleted_away moving halted lowers.2.2.1]
    exact halted_ended moving halted (passHomeCheck_ite_reported _)
  · rw [(commonCompleted_cases moving).1 halted] at falls stays ⊢
    let u : State := Completed w { w.ssv with shuttle := .atEnd } w.pgn
    have passes : PassesNow u ↔ PassesNow w := Iff.rfl
    by_cases near : Near w
    · rw [falls ⟨rfl, rfl, rfl, near⟩]
      by_cases check : PassesNow u
      · have passed : (PalletLowered u).passHomeCheck = HomePassed (PalletLowered u) :=
          moveShuttle_eq (s := { PalletLowered u with ssv := (PalletLowered u).ssv.endHoming }) .atHome nofun
        rw [if_pos check, passed]
        exact ⟨rfl, rfl, rfl, fun _ _ _ => ⟨rfl, rfl, rfl, rfl⟩, fun no => absurd ⟨trivial, halted, near⟩ no, fun _ => rfl,
          fun _ _ _ => rfl, fun _ no => absurd ⟨trivial, check⟩ no, fun yes => absurd yes halted, fun yes => absurd yes halted⟩
      · rw [if_neg check]
        exact ⟨rfl, rfl, rfl, fun _ _ _ => ⟨rfl, rfl, rfl, rfl⟩, fun no => absurd ⟨trivial, halted, near⟩ no, fun _ => rfl,
          fun _ _ yes => absurd yes check, fun _ _ => rfl, fun yes => absurd yes halted, fun yes => absurd yes halted⟩
    · rw [stays fun lowers => near lowers.2.2.2]
      have unpassed : ¬PassesNow u := fun yes => near yes.2.2
      rw [if_neg unpassed]
      exact ⟨rfl, rfl, rfl, fun _ _ yes => absurd yes near, fun _ => ⟨rfl, rfl, rfl, rfl⟩, fun _ => rfl, fun _ _ yes => absurd yes unpassed,
        fun _ _ => rfl, fun yes => absurd yes halted, fun yes => absurd yes halted⟩

/-! The last period (R57, R74, R75). -/

/-- R75: the profile as its last period ends. -/
def LastCommon (p : Pgn) : Pgn := { Ended (NextPeriod p (planVelocity p.distance p.accel p.plan p.periods)) with stopPosition := none }

theorem endPeriod_common {decel pitch : Nat} (common : p.kind = .forward ∨ p.kind = .resume) (running : p.phase = .running)
    (calm : p.rampFrom = none) (last : p.counter + 1 = p.periods) : ∃ q, Timed q = LastCommon p
      ∧ p.endPeriod decel pitch = (q, .completed) := by
  have homing : p.kind ≠ .homing := by rcases common with e | e <;> rw [e] <;> exact nofun
  have kind : p.kind.common = true := by rcases common with e | e <;> rw [e] <;> rfl
  have straight : ¬p.inRamp = true := by
    rw [inRamp_iff]
    rintro ⟨j, from_, -⟩
    cases calm.symm.trans from_
  refine ⟨{ Ended (PeriodOf p (Planned p)) with stopPosition := none }, ?_, ?_⟩
  · unfold LastCommon Planned
    rw [last]
    rfl
  · rw [Pgn.endPeriod, if_neg homing, if_neg straight, Pgn.endProfilePeriod, if_pos ⟨running, last.ge⟩, setpointAt_eq, Pgn.complete]
    simp only [kind, if_true]
    rfl

theorem outcome_completed (common : u.pgn.kind = .forward ∨ u.pgn.kind = .resume) :
    u.outcomeAfterWord .completed = u.commonCompleted := by
  have foreign : ¬(u.pgn.kind.localKind = true ∧ u.ssv.drive = false) := by
    rcases common with e | e <;> rw [e] <;> exact nofun
  have kind : u.pgn.kind.common = true := by rcases common with e | e <;> rw [e] <;> rfl
  rw [State.outcomeAfterWord, if_neg foreign]
  exact if_pos kind

/-- R57, R74, R75, R93: the last period: its word and POSITION, the completion, and the reports of the word. -/
theorem endPeriod_last (moving : s.ixs.state = .moving) (common : s.pgn.kind = .forward ∨ s.pgn.kind = .resume)
    (running : s.pgn.phase = .running) (calm : s.pgn.rampFrom = none) (last : s.pgn.counter + 1 = s.pgn.periods)
    (up : s.ssv.liftState = .up) :
    let w := Advanced s (LastCommon s.pgn)
    WordGiven s (LastCommon s.pgn) w ∧ IndexEnded (40 ≤ s.ssv.wordAge) w s.endPeriod := by
  obtain ⟨q, timed, ends⟩ := endPeriod_common (decel := s.items.stopDecel) (pitch := s.pitch) common running calm last
  have kind : (LastCommon s.pgn).kind.localKind = false := by rcases common with e | e <;> exact congrArg PgnKind.localKind e
  have given : WordGiven s (LastCommon s.pgn) (Advanced s (LastCommon s.pgn)) := by
    rcases advanced_cases s (LastCommon s.pgn) with ⟨e, -⟩ | ⟨e, free, -⟩ <;> rw [e]
    · exact givenOut_given s _
    · exact lost_given free kind
  refine ⟨given, ?_⟩
  have ixs : (Advanced s (LastCommon s.pgn)).ixs = s.ixs :=
    given.frame.ixs.resolve_right fun ready => by cases moving.symm.trans ready.1
  have lift : (Advanced s (LastCommon s.pgn)).ssv.liftState = .up :=
    ((outer_lift given.outer).2.trans (givenOut_field Ssv.liftState (fun _ _ _ _ => rfl) _)).trans up
  have outcome : (Advanced s (LastCommon s.pgn)).outcomeAfterWord .completed = (Advanced s (LastCommon s.pgn)).commonCompleted :=
    outcome_completed (by rw [given.pgn]; exact common)
  rw [endPeriod_eq (.inl running) ends, timed, outcome]
  by_cases free : 40 ≤ s.ssv.wordAge
  · rw [if_pos ((MotionProfiles.lineFree_iff s).2 free), eq_true free]
    exact reportWord_ended (by rw [ixs]; exact moving) lift
  · rw [if_neg (mt (MotionProfiles.lineFree_iff s).1 free), eq_false free]
    exact commonCompleted_ended (by rw [ixs]; exact moving)

/-! What the end of the command leaves of it. -/

/-- R143: the image moved one place downstream. -/
theorem shift_slots (im : Sim) : im.shift.slots.length = im.slots.length
    ∧ (im.slots ≠ [] → im.shift.slots[0]? = some .empty ∧ some im.shift.exitSlot = im.slots.getLast?)
    ∧ ∀ i : Nat, i + 1 < im.slots.length → im.shift.slots[i + 1]? = im.slots[i]? := by
  unfold Sim.shift
  refine ⟨by simp, fun some_ => ⟨?_, ?_⟩, fun i short => ?_⟩
  · rw [List.getElem?_take_of_lt (List.length_pos_iff.2 some_)]
    rfl
  · rw [List.getLastD_eq_getLast?, List.getLast?_eq_some_getLast some_]
    rfl
  · rw [List.getElem?_take_of_lt short]
    rfl

/-- R148: the marks of the members are nothing that a cause is judged by. -/
theorem condition_marks (u : State) (c : Cause) : ({ u with
    peers := u.peers.map fun p => { p with ready := false, lifted := false, resume := false } } : State).condition c = u.condition c := by
  cases c with
  | profileMismatch | peerSilent =>
    unfold State.condition
    dsimp only
    rw [List.any_map]
    rfl
  | _ => rfl

theorem ended_settled (moving : s.ixs.state = .moving) (given : WordGiven s g w) (ended : IndexEnded sent w r) (settled : CausesSettled s) :
    CausesSettled r := fun c self => by
  have other : c ≠ .followingError := fun e => by subst e; revert self; decide
  have har : r.har = w.har := by rw [ended.form]
  have marked : r.condition c = ({ r with peers := w.peers } : State).condition c :=
    (congrArg (fun l => State.condition { r with peers := l } c) (congrArg State.peers ended.form)).trans
      (condition_marks { r with peers := w.peers } c)
  have offline : r.offline = s.offline := offline_congr (by rw [moving]; exact nofun) (by rw [ended.ixs]; exact nofun)
  rw [har, given.causes.pending c other, given.causes.level c, marked,
    condition_congr (s := s) (t := { r with peers := w.peers }) offline (by rw [ended.form]; exact given.timer)
      (by rw [ended.form]; exact given.frame.items) (by rw [ended.form]; exact congrArg Rst.status given.frame.rst)
      (by rw [ended.form]; exact congrArg Rst.exitQueue given.frame.rst) (by rw [ended.form]; exact given.frame.ltu)
      given.frame.peers self]
  exact settled c self

theorem onlyIn_mono {l k : List Block} (h : OnlyIn l s t) (sub : ∀ b ∈ l, b ∈ k) : OnlyIn k s t :=
  ⟨fun b n => h.1 b fun i => n (sub b i), h.2⟩

theorem ended_onlyIn (ended : IndexEnded sent w r) : OnlyIn (.peers :: .sim :: causeBlocks) w r := by
  rw [ended.form]
  refine ⟨fun b n => ?_, rfl, rfl⟩
  cases b with
  | peers | sim | ixs | pgn | ssv => exact absurd (by decide) n
  | _ => rfl

/-- R57, R143: the blocks and the causes that the last period leaves. -/
theorem ended_kept (given : WordGiven s g w) (ended : IndexEnded sent w r) :
    OnlyIn (.peers :: .sim :: causeBlocks) s r.close ∧ LatchedKept [.followingError] s r.close := by
  have har : r.har = w.har := by rw [ended.form]
  have closed := close_same r
  rw [har] at closed
  have sub : ∀ b ∈ causeBlocks, b ∈ Block.peers :: .sim :: causeBlocks := fun b i => List.mem_cons_of_mem _ (List.mem_cons_of_mem _ i)
  refine ⟨?_, fun c => (closed.level c).trans (given.causes.level c),
    fun c latched other => (closed.pending c latched).trans (given.causes.pending c (by simpa using other))⟩
  exact onlyIn_trans (onlyIn_trans (onlyIn_mono (onlyIn_of_holdFrame given.frame) sub) (ended_onlyIn ended))
    (onlyIn_mono (onlyIn_of_holdFrame (close_frame r)) sub)

/-- R93, R98: the word as the last period has left it. -/
theorem outer_word {v w : Ssv} (h : Outer v = Outer w) :
    v.word = w.word ∧ v.wordAge = w.wordAge ∧ v.wordWaiting = w.wordWaiting ∧ v.followingError = w.followingError := by
  have word := congrArg Ssv.word h
  have age := congrArg Ssv.wordAge h
  have waits := congrArg Ssv.wordWaiting h
  have error := congrArg Ssv.followingError h
  exact ⟨word, age, waits, error⟩

theorem ended_word (given : WordGiven s g w) (ended : IndexEnded sent w r) :
    let v := (GivenOut s g).ssv
    r.close.ssv.word = v.word ∧ r.close.ssv.wordAge = v.wordAge ∧ r.close.ssv.wordWaiting = v.wordWaiting
      ∧ r.close.ssv.followingError = v.followingError := by
  obtain ⟨a1, a2, a3, a4⟩ := outer_word (close_outer r)
  obtain ⟨b1, b2, b3, b4⟩ := outer_word ended.outer
  obtain ⟨c1, c2, c3, c4⟩ := outer_word given.outer
  exact ⟨a1.trans (b1.trans c1), a2.trans (b2.trans c2), a3.trans (b3.trans c3), a4.trans (b4.trans c4)⟩

/-- R94, R95: the profile of a shuttle that was not HALTED stays. -/
theorem ended_profile (given : WordGiven s g w) (ended : IndexEnded sent w r) (common : g.kind.localKind = false)
    (running : s.ssv.shuttle ≠ .halted) : r.close.pgn = g := by
  have har : r.har = w.har := by rw [ended.form]
  by_cases halted : w.ssv.shuttle = .halted
  · obtain ⟨-, seven, pending⟩ := given.held running halted
    have profile := (ended.profile (.inr (anyPendingAt_entry seven pending))).trans given.pgn
    rw [close_common (fun _ => ⟨.followingError, rfl, by rw [har]; exact seven, by rw [har]; exact pending⟩) (by rw [profile]; exact common)]
    exact profile
  · have profile := (ended.profile (.inl halted)).trans given.pgn
    have free : r.ssv.shuttle ≠ .halted := by
      by_cases passes : sent ∧ PassesNow w
      · rw [ended.checked halted passes.1 passes.2]
        exact nofun
      · rw [ended.running halted passes]
        exact nofun
    rw [close_common (fun yes => absurd yes free) (by rw [profile]; exact common)]
    exact profile

/-- R99: POSITION of the last period. -/
theorem ended_position (given : WordGiven s g w) (ended : IndexEnded sent w r) (unready : s.ixs.state ≠ .ready)
    (eighth : g.counter % 8 = 0) : ∃ f ∈ r.close.lpt.queue, f.payload = PositionOf s g r.close.ssv.followingError := by
  obtain ⟨f, queued, payload⟩ := given.position unready eighth
  have own : ofCauses f.payload = false := by rw [payload]; rfl
  refine ⟨f, ((close_follows r).queue f own).2 ?_, ?_⟩
  · rw [ended.form]
    exact queued
  · rw [payload, (ended_word given ended).2.2.2, (outer_word given.outer).2.2.2]

/-- R58: where the last word stands in position. -/
theorem near_given (given : WordGiven s g w) (free : 40 ≤ s.ssv.wordAge) (running : w.ssv.shuttle ≠ .halted) (was : s.ssv.shuttle ≠ .halted) :
    Near w ↔ s.ssv.drive = true ∧ (s.ssv.encoder.toInt - g.setpoint).natAbs ≤ s.items.inposWindow := by
  unfold Near
  rw [given.running was running, given.frame.items, givenOut_drive]
  unfold GivenOut
  dsimp only
  rw [if_pos free]
  rfl

/-- R58: what LOWERING begins with, to the end of the command. -/
theorem ended_lowering (moving : s.ixs.state = .moving) (up : s.ssv.liftState = .up) (given : WordGiven s g w)
    (ended : IndexEnded (40 ≤ s.ssv.wordAge) w r) :
    let near := s.ssv.drive = true ∧ (s.ssv.encoder.toInt - g.setpoint).natAbs ≤ s.items.inposWindow
    r.close.ixs.state = .lowering ∧ r.close.ixs.index = s.ixs.index + 1 ∧ r.close.ixs.origin = none ∧ r.close.ixs.stopStamp = none
      ∧ r.close.ixs.sinceCompletion = 0
      ∧ (40 ≤ s.ssv.wordAge → w.ssv.shuttle ≠ .halted → near → s.ssv.shuttle ≠ .halted → r.close.ixs.step = .liftDown
          ∧ r.close.ixs.loweringTimer = some (Timeout s.items.lowerTimeout) ∧ r.close.ssv.lift = false ∧ r.close.ssv.liftState = .falling)
      ∧ (s.ssv.wordAge < 40 ∨ ¬near ∨ w.ssv.shuttle = .halted → r.close.ixs.step = .inPosition
          ∧ r.close.ixs.loweringTimer = some 250000 ∧ r.close.ssv.lift = s.ssv.lift ∧ r.close.ssv.liftState = .up) := by
  have ixs : w.ixs = s.ixs := given.frame.ixs.resolve_right fun ready => by cases moving.symm.trans ready.1
  have closed : r.close.ixs = r.ixs := close_ixs (by rw [ended.ixs]; exact nofun)
  obtain ⟨lift, liftState⟩ := outer_lift (close_outer r)
  obtain ⟨wLift, wState⟩ := outer_lift given.outer
  rw [closed, lift, liftState]
  refine ⟨by rw [ended.ixs], by rw [ended.ixs, ← ixs], by rw [ended.ixs], by rw [ended.ixs], by rw [ended.ixs],
    fun free running close was => ?_, fun stays => ?_⟩
  · rw [← given.frame.items]
    exact ended.lowers free running ((near_given given free running was).2 close)
  · have other : ¬(40 ≤ s.ssv.wordAge ∧ w.ssv.shuttle ≠ .halted ∧ Near w) := by
      rintro ⟨free, running, near⟩
      have was : s.ssv.shuttle ≠ .halted := fun halted => running (given.halted halted).1
      rcases stays with busy | far | halted
      · omega
      · exact far ((near_given given free running was).1 near)
      · exact running halted
    obtain ⟨step, timer, lift, state⟩ := ended.stays other
    exact ⟨step, timer, lift.trans (wLift.trans (givenOut_field Ssv.lift (fun _ _ _ _ => rfl) g)),
      state.trans (wState.trans ((givenOut_field Ssv.liftState (fun _ _ _ _ => rfl) g).trans up))⟩

/-- R94, R97: the halt at the last word. -/
theorem ended_lost (far : Exceeds s g) (ended : IndexEnded sent (Lost s g) r) :
    FollowingLost s r.close g ∧ r.close.ssv.haltedFrom = some .atEnd := by
  obtain ⟨-, seven, pending, -, halted⟩ := lost_held far
  have check : (Lost s g).ssv.homeCheck = false := by
    rw [(lost_drive far).1]
    rfl
  have ssv := ended.held halted (anyPendingAt_entry seven pending) check
  have lost : LostThen s g r (some .atEnd) := ⟨by rw [ended.form], by rw [ended.form], ssv⟩
  obtain ⟨following, drive, -⟩ := lost.closed far
  exact ⟨following, by rw [drive]⟩

/-- Settles O50: the word and POSITION of the last period (`WordGiven`), the completion and the reports (`IndexEnded`), and what the
end of the command leaves of them. -/
theorem indexCompletes : Obligations.IndexCompletes := by
  intro s moving common running calm last up v g near
  obtain ⟨given, ended⟩ : WordGiven s g (Advanced s g) ∧ IndexEnded (40 ≤ s.ssv.wordAge) (Advanced s g) s.endPeriod :=
    endPeriod_last moving common running calm last up
  have kind : g.kind.localKind = false := by rcases common with e | e <;> exact congrArg PgnKind.localKind e
  have word := ended_word given ended
  obtain ⟨onlyIn, latched⟩ := ended_kept given ended
  obtain ⟨lowering, index, origin, stamp, since, lowers, stays⟩ := ended_lowering moving up given ended
  have found_given (found : s.ssv.wordAge < 40 ∨ Follows97 s g.setpoint) : Advanced s g = GivenOut s g := by
    rcases advanced_cases s g with ⟨e, -⟩ | ⟨-, free, far⟩
    · exact e
    · exact (found.resolve_left (Nat.not_lt.2 free)).elim (fun f => absurd (.inl f) far) fun f => absurd (.inr f) far
  have sim : s.endPeriod.close.sim = s.sim.shift := by
    rw [(close_frame _).sim, ended.form]
    exact congrArg Sim.shift given.frame.sim
  refine ⟨_, exec_periodEnd (.inl running), onlyIn, latched, ended_profile given ended kind, fun pitch => ?_, fun free => ?_, fun busy => ?_,
    ended_position given ended (by rw [moving]; exact nofun), lowering, index, origin, stamp, since, fun free follows close was => ?_,
    fun still => ?_, fun far => ?_, fun found settled was => ?_, fun was settled check => ⟨fun any => ?_, fun none found => ?_⟩, ?_, ?_⟩
  · have setpoint : g.setpoint = (((s.pgn.base + (s.pgn.acc + v)) / 256 : Nat) : Int) := if_pos common
    rw [setpoint, ← Nat.add_assoc, pitch, Nat.mul_div_cancel _ (by decide)]
  · have sent : (GivenOut s g).ssv = WordStarted s.ssv g.setpoint := if_pos free
    rw [sent] at word
    exact ⟨word.1, word.2.1, word.2.2.1, word.2.2.2⟩
  · have waits : (GivenOut s g).ssv = { s.ssv with wordWaiting := true } := if_neg (Nat.not_le.2 busy)
    rw [waits] at word
    exact ⟨word.2.2.1, word.1, word.2.1⟩
  · refine lowers free ?_ close was
    rw [found_given (.inr follows), givenOut_shuttle]
    exact was
  · refine stays ?_
    rcases still with busy | far | exceeds | halted
    · exact .inl busy
    · exact .inr (.inl far)
    · refine .inr (.inr ?_)
      rw [show Advanced s g = Lost s g from advanced_exceeds exceeds.1 exceeds.2.1]
      exact (lost_held exceeds).dropped.2
    · exact .inr (.inr (given.halted halted).1)
  · have lost : Advanced s g = Lost s g := advanced_exceeds far.1 far.2.1
    rw [lost] at ended
    exact ended_lost far ended
  · have w : (Advanced s g) = GivenOut s g := found_given found
    have free : (Advanced s g).ssv.shuttle ≠ .halted := by rw [w, givenOut_shuttle]; exact was
    have passes (sent : 40 ≤ s.ssv.wordAge) : PassesNow (Advanced s g) ↔ s.ssv.homeCheck = true ∧ s.inputs.home = true ∧ near := by
      unfold PassesNow
      rw [near_given given sent free was, w, givenOut_field Ssv.homeCheck (fun _ _ _ _ => rfl) g]
      exact Iff.rfl
    rw [(close_settled_drive (ended_settled moving given ended settled)).1]
    split
    · rename_i checked
      obtain ⟨check, home, close, sent⟩ := checked
      exact ended.checked free sent ((passes sent).2 ⟨check, home, close⟩)
    · rename_i unchecked
      refine ended.running free fun checked => unchecked ?_
      obtain ⟨check, home, close⟩ := (passes checked.1).1 checked.2
      exact ⟨check, home, close, checked.1⟩
  · obtain ⟨halted, checks⟩ := given.halted was
    have pending := given.pending any
    obtain ⟨ssv, pgn⟩ := close_settled_drive (ended_settled moving given ended settled)
    rw [ssv, pgn, ended.held halted pending (checks.trans check)]
    exact ⟨(ended.profile (.inr pending)).trans given.pgn, halted, rfl⟩
  · have w : (Advanced s g) = GivenOut s g := found_given found
    rw [w] at given ended
    obtain ⟨halted, checks⟩ := given.halted was
    obtain ⟨ssv, pgn⟩ := close_settled_drive (ended_settled moving given ended settled)
    obtain ⟨drive, profile⟩ := ended.again halted none (checks.trans check)
    have again : PitchAgain (GivenOut s g) (GivenOut s g).pgn = PitchAgain s g := by
      unfold PitchAgain
      rw [givenOut_encoder]
      rfl
    rw [ssv, pgn, drive, profile, again]
    exact ⟨rfl, rfl, rfl, rfl, rfl, rfl⟩
  · rw [(close_frame _).peers, ended.form]
    exact congrArg (List.map _) given.frame.peers
  · rw [sim]
    exact shift_slots s.sim

end Sys2Proof.Completions
end

section
/-! RESUME at its observation, and a level-6 or level-7 cause that comes up with it (R40, R50, R64, R70, R81, R86, R87, R94, R95, R152). -/

set_option Elab.async false

namespace Sys2Proof.ResumeFrames

open Sys2Proof.Machine Sys2Proof.Safety Sys2Proof.Claims Sys2Proof.SectionLine Sys2Proof.StepTime Sys2Proof.MotionProfiles
  Sys2Proof.SafetyCauses Sys2Proof.ReadyFrames Sys2Proof.CommonMotion Sys2Proof.SeatingDecisions

variable {s t u : State} {c d : Cause} {m : Nat} {own : Bool} {clock : FrameClock} {h : Header} {p : Pgn} {x : LineTime}

/-! The transmit queue. -/

/-- R9: of two frames of one kind the later stays. -/
theorem insertFrame_again {f g : QueuedFrame} (kind : f.payload.kind = g.payload.kind) (q : List QueuedFrame) :
    insertFrame f (insertFrame g q) = insertFrame f q := by
  induction q with
  | nil => simp [insertFrame, kind]
  | cons a q ih =>
    rw [insertFrame, insertFrame, kind]
    split
    · simp [insertFrame, kind]
    · split
      · simp [insertFrame, kind]
      · rename_i before same
        rw [insertFrame, kind, if_neg before, if_neg same, ih]

theorem enqueue_again (l : Lpt) {a b : Payload} (kind : b.kind = a.kind) : (l.enqueue a).enqueue b = (l.enqueue b).enqueue b := by
  unfold Lpt.enqueue
  dsimp only
  rw [insertFrame_again (f := ⟨l.nextId + 1, b⟩) (g := ⟨l.nextId, a⟩) kind,
    insertFrame_again (f := ⟨l.nextId + 1, b⟩) (g := ⟨l.nextId, b⟩) rfl]

/-! A cause of a level below 7 and a change of the drive (R94, R149). -/

/-- The state with another profile and drive. -/
def Redriven (s : State) (p : Pgn) (v : Ssv) : State := { s with pgn := p, ssv := v }

theorem renewJoin_redriven (s : State) (p : Pgn) (v : Ssv) : (Redriven s p v).renewJoin = Redriven s.renewJoin p v := by
  by_cases holds : s.lpt.holds (ofKind .join) = true
  · rw [show s.renewJoin = s.queueFrame s.joinPayload from if_pos holds]
    exact if_pos holds
  · rw [show s.renewJoin = s from if_neg holds]
    exact if_neg holds

theorem leaveReady_redriven (s : State) (p : Pgn) (v : Ssv) : (Redriven s p v).leaveReady = Redriven s.leaveReady p v := by
  by_cases ready : s.ixs.state = .ready
  · rw [show s.leaveReady = (s.withdraw (ofKind .ready)).enter .working from if_pos ready]
    exact if_pos ready
  · rw [show s.leaveReady = s.withdraw (ofKind .ready) from if_neg ready]
    exact if_neg ready

theorem announce_redriven (s : State) (p : Pgn) (v : Ssv) : (Redriven s p v).announce = Redriven s.announce p v := by
  by_cases same : s.har.pair = (s.har.announcedLevel, s.har.announcedCause)
  · have left : s.announce = s := if_pos same
    rw [left]
    exact if_pos same
  · let u : State := ({ s with har := { s.har with announcedLevel := s.har.pair.1, announcedCause := s.har.pair.2 } } :
      State).queueFrame (.hold s.har.pair.1 s.har.pair.2)
    have new : s.announce = if 4 ≤ s.har.pair.1 then u.renewJoin.leaveReady else u.renewJoin := if_neg same
    have new' : (Redriven s p v).announce
        = if 4 ≤ s.har.pair.1 then (Redriven u p v).renewJoin.leaveReady else (Redriven u p v).renewJoin := if_neg same
    rw [new, new', renewJoin_redriven, leaveReady_redriven]
    split <;> rfl

theorem raise_redriven (lower : s.har.level c ≠ 7) (p : Pgn) (v : Ssv) : (Redriven s p v).raise c = Redriven (s.raise c) p v := by
  by_cases taken : s.offline ∨ s.har.level c = 0 ∨ s.har.isPending c
  · rw [raise_ignored s c taken]
    exact raise_ignored (Redriven s p v) c taken
  · let u : State := { s with har := s.har.setPending c true }
    have announced : (Redriven u p v).announce = Redriven u.announce p v := announce_redriven u p v
    have stops : (Redriven s p v).raise c = if 6 ≤ s.har.level c ∧ (Redriven u p v).announce.ixs.state.queuesStop
        then (Redriven u p v).announce.queueStop c.number else (Redriven u p v).announce :=
      (raise_taken (Redriven s p v) c taken).trans (if_neg lower)
    have stops' : s.raise c = if 6 ≤ s.har.level c ∧ u.announce.ixs.state.queuesStop
        then u.announce.queueStop c.number else u.announce := (raise_taken s c taken).trans (if_neg lower)
    rw [stops, stops', announced]
    by_cases queues : 6 ≤ s.har.level c ∧ u.announce.ixs.state.queuesStop
    · rw [if_pos queues]
      exact if_pos queues
    · rw [if_neg queues]
      exact if_neg queues

/-! A cause of level 6 that comes up while one of level 7 is announced (R50, R152). -/

/-- R152: the pair stays. -/
theorem pair_lower {h : Har} (every : h.causes.length = Cause.all.length) (seven : h.pair.1 = 7) (lower : h.level c < 7) :
    (h.setPending c true).pair = h.pair := by
  let k := h.setPending c true
  have every' : k.causes.length = Cause.all.length := (setPending_length _ _ _).trans every
  obtain ⟨d, pending, pair⟩ := (pair_cases every).resolve_left fun none => by rw [none] at seven; cases seven
  have at7 : h.level d = 7 := by rw [pair] at seven; exact seven
  have differs : d ≠ c := fun e => by subst e; omega
  have least : rank h.pair ≤ rank k.pair := by
    have := rank_le every' (c := d) ((setPending_other h differs true).trans pending)
    rwa [show k.pairOf d = h.pair from by rw [pair, Har.pairOf, Har.pairOf, setPending_level]] at this
  refine rank_inj every' every (Nat.le_antisymm ?_ least)
  rcases pair_cases every' with none | ⟨e, pending', pair'⟩
  · rw [none]
    exact Nat.zero_le _
  · rw [pair', show k.pairOf e = h.pairOf e from by rw [Har.pairOf, Har.pairOf, setPending_level]]
    by_cases same : e = c
    · subst same
      have number := e.number_lt
      simp only [rank, Har.pairOf, show Cause.all.length = 24 from rfl] at number ⊢
      omega
    · exact rank_le every ((setPending_other h same true).symm.trans pending')

/-- R50: `s` in which a cause of level 6 comes up that leaves the pair, STOP being queued with whatever cause. -/
def Stopped (s : State) (c : Cause) (p : Payload) : State := ({ s with har := s.har.setPending c true } : State).queueFrame p

theorem stopped_effects {q : Payload} (every : EveryCause s) (idle : s.har.isPending c = false) (six : s.har.level c = 6)
    (stops : s.ixs.state.queuesStop = true) (pair : (s.har.setPending c true).pair = s.har.pair) (kind : q.kind = .stop) :
    Effects [c] s (Stopped s c q) := by
  have same : SameCauses (· ∉ [c]) s.har (s.har.setPending c true) :=
    ⟨setPending_length _ _ _, fun d => setPending_level _ _ _ _, fun d other => setPending_other _ (by simpa using other) true⟩
  have new : (s.har.setPending c true).isPending c = true := setPending_self _ _ _ every
  have stopping : ¬NoStopCause s (Stopped s c q) := fun none => by
    cases (none stops c (by omega) idle).symm.trans new
  refine ⟨same, .of_ixs rfl rfl rfl rfl rfl rfl rfl rfl rfl rfl rfl rfl, fun still => ?_, fun _ => ⟨rfl, rfl⟩, fun d seven pending held => ?_,
    fun _ => ⟨fun _ => ⟨rfl, rfl⟩, fun any none => ?_⟩, fun announced => ?_, fun _ differs => absurd ⟨rfl, rfl⟩ differs, fun _ _ => ⟨?_, ?_⟩,
    fun none => absurd none stopping, fun _ _ _ => ⟨rfl, ?_⟩, fun _ _ none => absurd none stopping⟩
  · cases (still c).symm.trans new |>.symm.trans idle
  · have other : d ≠ c := fun e => by subst e; omega
    exact held ((setPending_other _ other true).symm.trans pending)
  · obtain ⟨d, seven, pending⟩ := (anyPendingAt_iff every 7).1 any
    have other : d ≠ c := fun e => by subst e; omega
    have still : (s.har.setPending c true).anyPendingAt 7 = true := (anyPendingAt_iff (same.length.trans every) 7).2
      ⟨d, (same.level d).trans seven, (same.pending d (by simpa using other)).trans pending⟩
    cases still.symm.trans none
  · unfold PairAnnounced at announced ⊢
    exact announced.trans pair.symm
  all_goals exact queueFrame_frames { s with har := s.har.setPending c true } q (by rw [kind]; exact nofun)

/-- R50, R149, R152: a cause of level 6 that leaves the pair queues its STOP alone. -/
theorem raise_quiet (taken : ¬(s.offline ∨ s.har.level c = 0 ∨ s.har.isPending c)) (six : s.har.level c = 6)
    (stops : s.ixs.state.queuesStop = true) (announced : PairAnnounced s) (pair : (s.har.setPending c true).pair = s.har.pair) :
    s.raise c = Stopped s c (.stop s.ixs.index c.number s.har.announcedLevel) := by
  let u : State := { s with har := s.har.setPending c true }
  have quiet : u.announce = u := if_pos (pair.trans announced.symm)
  have raised : s.raise c = if 6 ≤ s.har.level c ∧ u.announce.ixs.state.queuesStop then u.announce.queueStop c.number else u.announce :=
    (raise_taken s c taken).trans (if_neg (by omega))
  rw [raised, quiet]
  exact if_pos ⟨by omega, stops⟩

/-! The start of a common profile with a cause that comes up (R50, R64, R87). -/

/-- R64, R87: the station that leaves, before it queues STOP. -/
def Departed (s : State) (p : Pgn) (x : LineTime) : State :=
  Redriven (Recast s s.fxs { s.ixs with state := .moving, origin := some x, resumeStep := .none }) p (OnForward s.ssv)

theorem moving_seven (seven : s.har.announcedLevel = 7) (p : Pgn) (x : LineTime) :
    Moving s p x = (Departed s p x).queueFrame (.stop s.ixs.index s.har.announcedCause 7) := by
  unfold Moving
  rw [if_pos seven]
  rfl

theorem moving_lower (lower : s.har.announcedLevel ≠ 7) (p : Pgn) (x : LineTime) : Moving s p x = Departed s p x := by
  unfold Moving
  rw [if_neg lower]
  rfl

/-- R94, R149: a cause of a level below 7 comes up in RESUME_WAIT as it does once the station has left. -/
theorem departed_raise (waits : s.ixs.state = .resumeWait) (lower : s.har.level c ≠ 7) (p : Pgn) (x : LineTime) :
    Departed (s.raise c) p x = (Departed s p x).raise c := by
  let away : Ixs := { s.ixs with state := .moving, origin := some x, resumeStep := .none }
  have alike : Alike s.ixs away :=
    ⟨rfl, ⟨by rw [waits]; exact nofun, nofun⟩, by rw [waits]; rfl, by rw [waits]; rfl, by rw [waits]; rfl⟩
  have drive : (s.raise c).ssv = s.ssv := by
    by_cases taken : s.offline ∨ s.har.level c = 0 ∨ s.har.isPending c
    · rw [raise_ignored s c taken]
    · rw [(raise_drive taken).1, if_neg lower]
  have left : (Departed s p x).raise c = Redriven (Recast (s.raise c) s.fxs away) p (OnForward s.ssv) :=
    (raise_redriven (s := Recast s s.fxs away) lower p (OnForward s.ssv)).trans
      (congrArg (Redriven · p (OnForward s.ssv)) (raise_recast c alike))
  rw [left, Departed, drive, (raise_frame s c).fxs, raise_ixs c (by rw [waits]; exact nofun)]

/-- R152: a cause of a level below 7 that comes up announces no level 7. -/
theorem raise_announced_lower (levels : LevelsLegal s) (announced : PairAnnounced s) (low : s.har.announcedLevel ≠ 7)
    (lower : s.har.level c ≠ 7) : (s.raise c).har.announcedLevel ≠ 7 := by
  intro seven
  have same := raise_same s c
  have levels' := levelsLegal_same same levels
  have pair : (s.raise c).har.pair.1 = 7 := by
    rw [← congrArg Prod.fst ((raise_effects s c levels.1).announced announced)]
    exact seven
  obtain ⟨d, pending, top⟩ := (pair_cases levels'.1).resolve_left fun none => by rw [none] at pair; cases pair
  have at7 : s.har.level d = 7 := by
    rw [top] at pair
    exact (same.level d).symm.trans pair
  have other : d ≠ c := fun e => lower (e ▸ at7)
  exact low (announcedLevel_held levels at7 ((same.pending d other).symm.trans pending) announced)

/-- R50, R64, R152: everything that a cause of level 6 does that comes up as the station leaves RESUME_WAIT. -/
theorem moving_follows (waits : s.ixs.state = .resumeWait) (levels : LevelsLegal s) (announced : PairAnnounced s) (latched : c.latched = true)
    (six : s.har.isPending c = false → s.har.level c = 6) (p : Pgn) (x : LineTime) :
    Follows [c] (Moving s p x) (Moving (s.raise c) p x).close := by
  by_cases taken : s.offline ∨ s.har.level c = 0 ∨ s.har.isPending c
  · rw [raise_ignored s c taken]
    exact close_follows_of (.rfl' _) (.rfl' _) (.rfl' _ _) (fun _ => .rfl' _ _) (by simpa using latched)
  · have idle : s.har.isPending c = false := Bool.eq_false_iff.2 fun pending => taken (.inr (.inr pending))
    have six := six idle
    have lower : s.har.level c ≠ 7 := by omega
    by_cases seven : s.har.announcedLevel = 7
    · have top : s.har.pair.1 = 7 := (congrArg Prod.fst announced).symm.trans seven
      have pair := pair_lower (c := c) levels.1 top (by omega)
      have left : Moving (s.raise c) p x = Stopped (Moving s p x) c (.stop s.ixs.index s.har.announcedCause 7) := by
        rw [raise_quiet taken six (by rw [waits]; rfl) announced pair, moving_seven (by exact seven), moving_seven seven]
        exact congrArg (fun l => ({ Departed s p x with lpt := l, har := s.har.setPending c true } : State))
          (enqueue_again s.lpt (a := .stop s.ixs.index c.number s.har.announcedLevel) (b := .stop s.ixs.index s.har.announcedCause 7) rfl)
      have effects : Effects [c] (Moving s p x) (Stopped (Moving s p x) c (.stop s.ixs.index s.har.announcedCause 7)) :=
        stopped_effects levels.1 idle six rfl pair rfl
      have moves : HoldMoves (Moving s p x) (Stopped (Moving s p x) c (.stop s.ixs.index s.har.announcedCause 7)) :=
        (setPending_moves (Moving s p x) c true).trans (queueFrame_moves _ _ rfl nofun)
      rw [left]
      exact close_follows_of effects.frame moves effects.same (fun _ => effects) (by simpa using latched)
    · rw [moving_lower seven, moving_lower (raise_announced_lower levels announced seven lower), departed_raise waits lower]
      exact raise_close_follows _ c latched

/-! A STOP of level 7 while a cause holds the shuttle (R50, R94, R152). -/

/-- R50: a STOP of the station's index and level 7 stands in the transmit queue. -/
def StopSeven (s : State) : Prop := ∃ f ∈ s.lpt.queue, ∃ k : Nat, f.payload = .stop s.ixs.index k 7

/-- R94, R152: a cause of level 7 is pending and announced, and STOP queued with it. -/
structure HeldSeven (c : Cause) (s : State) : Prop where
  held : HeldBy c s
  levels : LevelsLegal s
  announced : PairAnnounced s
  stop : StopSeven s

theorem HeldSeven.seven (k : HeldSeven c s) : s.har.announcedLevel = 7 :=
  announcedLevel_held k.levels k.held.seven k.held.pending k.announced

theorem StopSeven.of_frames (stop : StopSeven s) (frames : SameFrames .stop s t) (index : t.ixs.index = s.ixs.index) : StopSeven t := by
  obtain ⟨f, queued, k, payload⟩ := stop
  exact ⟨f, (frames f (by rw [payload]; rfl)).2 queued, k, by rw [index]; exact payload⟩

/-- R50: a STOP that a further cause queues is of level 7 too. -/
theorem stopSeven_raise (d : Cause) (stop : StopSeven s) (seven : (s.raise d).har.announcedLevel = 7) : StopSeven (s.raise d) := by
  by_cases taken : s.offline ∨ s.har.level d = 0 ∨ s.har.isPending d
  · rw [raise_ignored s d taken]
    exact stop
  · let u : State := { s with har := s.har.setPending d true }.announce
    let w : State := { s with har := s.har.setPending d true }
    have index : u.ixs.index = w.ixs.index := index_of_holdFrame (announce_frame w)
    have waits : StopSeven u := stop.of_frames (announce_effects w).2.2.1 index
    let v : State := if 6 ≤ s.har.level d ∧ u.ixs.state.queuesStop then u.queueStop d.number else u
    have raised : s.raise d = if s.har.level d = 7 then v.dropDrive else v := raise_taken s d taken
    have har : (s.raise d).har = u.har := by
      rw [raised]
      unfold v
      split <;> split <;> simp only [dropDrive_har, State.queueStop, State.queueFrame]
    have queued : StopSeven v := by
      unfold v
      split
      · refine ⟨_, mem_insertFrame_self _ _, d.number, ?_⟩
        change Payload.stop u.ixs.index d.number u.har.announcedLevel = _
        rw [← har, seven]
        rfl
      · exact waits
    rw [raised]
    split
    · exact queued.of_frames (fun _ _ => by rw [dropDrive_lpt]) (by rw [dropDrive_ixs])
    · exact queued

theorem refreshCause_heldSeven (other : c ≠ d) (k : HeldSeven c s) : HeldSeven c (s.refreshCause d) := by
  obtain ⟨held, -, -⟩ := refreshCause_held k.held other
  have levels := levelsLegal_same (refreshCause_same s d) k.levels
  have announced : PairAnnounced (s.refreshCause d) := (refreshCause_effects s d k.levels.1).announced k.announced
  refine ⟨held, levels, announced, ?_⟩
  have seven := announcedLevel_held levels held.seven held.pending announced
  unfold State.refreshCause at seven ⊢
  split
  · rename_i present
    rw [if_pos present] at seven
    exact stopSeven_raise d k.stop seven
  · have same := unpend_same s d
    have none : NoStopCause s (s.unpend d) := fun _ e _ idle => by
      by_cases own : e = d
      · subst own
        rw [unpend_idle s e idle]
        exact idle
      · exact (same.pending e own).trans idle
    exact k.stop.of_frames ((unpend_effects s d k.levels.1).stop none) (index_of_holdFrame (unpend_frame s d))

/-- R94, R152: what a latched cause of level 7 holds to the end of the command. -/
theorem HeldSeven.close (latched : c.latched = true) (k : HeldSeven c s) : s.close.har.announcedLevel = 7 ∧ StopSeven s.close := by
  have fold (l : List Cause) (beyond : c ∉ l) : ∀ u : State, HeldSeven c u → HeldSeven c (l.foldl State.refreshCause u) := by
    induction l with
    | nil => exact fun _ k => k
    | cons d l ih =>
      obtain ⟨first, rest⟩ := not_or.1 (mt List.mem_cons.2 beyond)
      exact fun u k => ih rest _ (refreshCause_heldSeven first k)
  have folded : HeldSeven c s.refreshCauses := fold Cause.selfClearing (latched_not_selfClearing latched) s k
  unfold State.close
  generalize s.refreshCauses = u at folded
  exact ⟨folded.seven, folded.stop⟩

/-! RESUME (R40, R64). -/

/-- R40: the mark of the member set. -/
def ResumeMarked (s : State) (m : Nat) (own : Bool) : State :=
  { Arrived s m own with peers := updateAt (fun p => { p with resume := true }) m (Arrived s m own).peers }

/-- R40: RESUME acts. -/
def ResumeTaken (s : State) (i : IndexNo) : Prop := i = s.ixs.index ∧ (s.ixs.state = .stopped ∨ s.ixs.state = .resumeWait)

/-- R40, R81: the mark set and the stop setpoint compared. -/
def ResumeCompared (s : State) (m : Nat) (own : Bool) (sp : Nat) : State :=
  if s.pgn.stopSetpoint = some sp then ResumeMarked s m own else (ResumeMarked s m own).raise .syncDeviation

theorem deliverResume_taken {i : IndexNo} {sp : Nat} (taken : ResumeTaken s i) :
    (Arrived s m own).deliver ⟨m, own, clock⟩ ⟨h, .resume i sp⟩ = (ResumeCompared s m own sp).checkResumeBarrier h.stamp :=
  if_pos taken

theorem resumeCompared_frame (s : State) (m : Nat) (own : Bool) (sp : Nat) : HoldFrame (ResumeMarked s m own) (ResumeCompared s m own sp) := by
  unfold ResumeCompared
  split
  · exact .rfl' _
  · exact raise_frame _ _

/-- R40, R64: the barrier of RESUME. -/
theorem resumeBarrier_iff {i : IndexNo} (taken : ResumeTaken s i) (sp : Nat) : ((ResumeCompared s m own sp).ixs.state = .resumeWait
    ∧ (ResumeCompared s m own sp).allMarked Peer.resume = true) ↔ s.ixs.state = .resumeWait ∧ OthersMarked s m Peer.resume := by
  have frame := resumeCompared_frame s m own sp
  have ixs : (ResumeCompared s m own sp).ixs = s.ixs := frame.ixs.resolve_right fun ready => by
    rcases taken.2 with e | e <;> cases e.symm.trans ready.1
  rw [ixs, State.allMarked, frame.peers]
  exact and_congr Iff.rfl (all_marked_iff (fun _ => rfl) m s.peers)

/-- R81: the resume profile does not depend on what a halt leaves. -/
theorem halt_prepareResume (p : Pgn) (pitch vmax accel : Nat) (x : LineTime) :
    p.halt.prepareResume pitch vmax accel x = p.prepareResume pitch vmax accel x := by
  unfold Pgn.halt
  split <;> rfl

theorem raise_prepareResume (s : State) (c : Cause) (pitch vmax accel : Nat) (x : LineTime) :
    (s.raise c).pgn.prepareResume pitch vmax accel x = s.pgn.prepareResume pitch vmax accel x := by
  by_cases taken : s.offline ∨ s.har.level c = 0 ∨ s.har.isPending c
  · rw [raise_ignored s c taken]
  · rw [(raise_drive taken).2]
    split
    · unfold State.dropDrive
      split
      · rfl
      · exact halt_prepareResume _ _ _ _ _
    · rfl

/-- R64, R81: the resume profile prepared at its origin. -/
def ResumeProfile (s : State) (x : LineTime) : Pgn := s.pgn.prepareResume s.pitch s.items.vmax s.items.accel (OriginAfter x)

theorem checkResumeBarrier_passes {sp : Nat} (complete : (ResumeCompared s m own sp).ixs.state = .resumeWait
    ∧ (ResumeCompared s m own sp).allMarked Peer.resume = true) (x : LineTime) :
    (ResumeCompared s m own sp).checkResumeBarrier x = Moving (ResumeCompared s m own sp) (ResumeProfile s x) (OriginAfter x) := by
  have items : (ResumeCompared s m own sp).items = s.items := (resumeCompared_frame s m own sp).items
  have profile : (ResumeCompared s m own sp).pgn.prepareResume s.pitch s.items.vmax s.items.accel (OriginAfter x) = ResumeProfile s x := by
    unfold ResumeCompared
    split
    · rfl
    · exact raise_prepareResume _ _ _ _ _ _
  rw [State.checkResumeBarrier, if_pos complete, startMotion_eq, State.pitch, items, originOf_eq, ← profile]
  rfl

/-- R70, R81: the resume profile from the stop position. -/
theorem prepareResume_prepared {pos : Nat} (stop : p.stopPosition = some pos) (pitch vmax accel : Nat) (x : LineTime) :
    Prepared p (p.prepareResume pitch vmax accel x) .resume (pitch * 256 - pos) vmax accel
      ∧ (p.prepareResume pitch vmax accel x).base = pos
      ∧ (p.prepareResume pitch vmax accel x).setpoint = ((pos / 256 : Nat) : Int) := by
  unfold Pgn.prepareResume
  rw [stop]
  exact ⟨⟨rfl, rfl, rfl, rfl, rfl, rfl, rfl, rfl, rfl, rfl, rfl, rfl, rfl⟩, rfl, rfl⟩

/-- R81: the stop setpoint that differs, by what SYNC_DEVIATION is and was. -/
theorem compared_pending {sp : Nat} (on : s.ixs.state ≠ .offline) (levels : LevelsLegal s) (differs : s.pgn.stopSetpoint ≠ some sp) :
    (ResumeCompared s m own sp).har.isPending .syncDeviation = true := by
  rw [show ResumeCompared s m own sp = (ResumeMarked s m own).raise .syncDeviation from if_neg differs]
  exact raise_pending (ResumeMarked s m own) .syncDeviation (beq_eq_false_iff_ne.2 on)
    (level_pos (s := ResumeMarked s m own) levels (by decide)) levels.1

/-- R87: a HALTED shuttle is halted from FORWARD. -/
theorem onForward_halted {v : Ssv} (halted : v.shuttle = .halted) : (OnForward v).shuttle = .halted
    ∧ (OnForward v).haltedFrom = some .forward ∧ (OnForward v).drive = v.drive := by
  unfold OnForward
  dsimp only
  rw [if_pos halted]
  exact ⟨halted, rfl, rfl⟩

theorem checkResumeBarrier_har (s : State) (x : LineTime) : (s.checkResumeBarrier x).har = s.har := by
  unfold State.checkResumeBarrier
  split
  · rw [startMotion_eq]
    rfl
  · rfl

/-- R64, R94: the station that SYNC_DEVIATION of level 7 halts as it leaves. -/
theorem moving_heldSeven (levels : LevelsLegal s) (waits : s.ixs.state = .resumeWait) (seven : s.har.level c = 7)
    (idle : s.har.isPending c = false) (p : Pgn) (x : LineTime) : HeldSeven c (Moving (s.raise c) p x) := by
  have on : s.offline = false := beq_eq_false_iff_ne.2 (by rw [waits]; exact nofun)
  obtain ⟨every, level, pending, drive, shuttle⟩ := raise_heldBy levels.1 seven on idle
  have levels' := levelsLegal_same (raise_same s c) levels
  have announced : PairAnnounced (s.raise c) := raise_announces (raise_isTaken seven on idle)
  have top := announcedLevel_held levels' level pending announced
  obtain ⟨still, -, dropped⟩ := onForward_halted shuttle
  refine ⟨⟨every, level, pending, dropped.trans drive, still⟩, levels', announced, ?_⟩
  rw [moving_seven top]
  exact ⟨_, mem_insertFrame_self _ _, (s.raise c).har.announcedCause, rfl⟩

/-- R50, R64, R94: what that halt has done by the end of the command. -/
theorem moving_halts (levels : LevelsLegal s) (waits : s.ixs.state = .resumeWait) (latched : c.latched = true)
    (seven : s.har.level c = 7) (idle : s.har.isPending c = false) (p : Pgn) (x : LineTime) :
    let t := (Moving (s.raise c) p x).close
    t.pgn = p ∧ t.ssv.shuttle = .halted ∧ t.ssv.haltedFrom = some .forward ∧ t.ssv.drive = false ∧ t.har.announcedLevel = 7
      ∧ LatchedKept [c] s t ∧ ∃ q ∈ t.lpt.queue, ∃ k : Nat, q.payload = .stop s.ixs.index k 7 := by
  intro t
  have held := moving_heldSeven levels waits seven idle p x
  obtain ⟨ssv, pgn⟩ := close_held latched held.held
  obtain ⟨top, f, queued, k, payload⟩ := held.close latched
  have dropped := (raise_heldBy levels.1 seven (beq_eq_false_iff_ne.2 (by rw [waits]; exact nofun)) idle).dropped
  obtain ⟨halted, from_, drive⟩ := onForward_halted dropped.2
  have raised := raise_same s c
  have closed : SameCauses (Cause.latched · = true) (s.raise c).har t.har := close_same (Moving (s.raise c) p x)
  have left : (Moving (s.raise c) p x).ixs.index = (s.raise c).ixs.index := rfl
  have index : t.ixs.index = s.ixs.index :=
    (index_of_holdFrame (close_frame (Moving (s.raise c) p x))).trans (left.trans (index_of_holdFrame (raise_frame s c)))
  refine ⟨pgn, (congrArg Ssv.shuttle ssv).trans halted, (congrArg Ssv.haltedFrom ssv).trans from_,
    (congrArg Ssv.drive ssv).trans (drive.trans dropped.1), top, ⟨fun d => (closed.level d).trans (raised.level d), fun d stays other => ?_⟩,
    f, queued, k, payload.trans (congrArg (Payload.stop · k 7) index)⟩
  exact (closed.pending d stays).trans (raised.pending d (by simpa using other))

/-- Settles O29: the mark and the comparison (`ResumeCompared`); a SYNC_DEVIATION of level 6 comes up as it would in MOVING
(`moving_follows`), one of level 7 halts the station that leaves (`moving_heldSeven`). -/
theorem resumeMarksAndMoves : Obligations.ResumeMarksAndMoves := by
  intro s h i sp m own clock arrives levels a taken complete marked o moved halts
  have on : s.ixs.state ≠ .offline := arrives.2.2.2.1
  have barrier (acts : taken) := resumeBarrier_iff (m := m) (own := own) acts sp
  have same : s.pgn.stopSetpoint = some sp → ResumeCompared s m own sp = marked := fun e => if_pos e
  have other : s.pgn.stopSetpoint ≠ some sp → ResumeCompared s m own sp = marked.raise .syncDeviation := fun e => if_neg e
  refine ⟨_, congrArg Host.Outcome.next (observe_arrives arrives), fun left => ?_, fun acts differs => ?_, fun acts short => ?_,
    fun acts waits all => ?_⟩
  · rw [show a.deliver ⟨m, own, clock⟩ ⟨h, .resume i sp⟩ = a from if_neg left]
    exact close_follows a
  · rw [deliverResume_taken acts, (close_same _).pending _ rfl, checkResumeBarrier_har]
    exact compared_pending on levels differs
  · rw [deliverResume_taken acts, State.checkResumeBarrier, if_neg (mt (barrier acts).1 short)]
    refine ⟨?_, fun e => ?_⟩
    · by_cases e : s.pgn.stopSetpoint = some sp
      · rw [same e]
        exact close_follows_of (.rfl' _) (.rfl' _) (.rfl' _ _) (fun _ => .rfl' _ _) (by simp [Cause.latched])
      · rw [other e]
        exact raise_close_follows marked .syncDeviation rfl
    · rw [same e]
      exact close_leads marked
  · rw [deliverResume_taken acts, checkResumeBarrier_passes ((barrier acts).2 ⟨waits, all⟩)]
    have ixs : (ResumeCompared s m own sp).ixs = s.ixs := (resumeCompared_frame s m own sp).ixs.resolve_right fun ready => by
      cases waits.symm.trans ready.1
    refine ⟨?_, fun e => ?_, fun e milder announced => ?_, fun e halts => ?_, rfl, fun pos stop => ?_⟩
    · rw [close_ixs (s := Moving (ResumeCompared s m own sp) _ _) nofun]
      unfold Moving
      dsimp only
      rw [ixs]
    · rw [same e]
      exact close_leads moved
    · rw [other e]
      refine moving_follows (s := marked) waits levels announced rfl (fun idle => ?_) _ _
      have lower : s.har.level .syncDeviation ≠ 7 := fun seven => milder ⟨seven, idle⟩
      obtain ⟨least, most⟩ := levels.2 .syncDeviation
      have floor : Cause.floor .syncDeviation = 6 := rfl
      change s.har.level .syncDeviation = 6
      omega
    · rw [other e]
      obtain ⟨pgn, shuttle, from_, drive, seven, latched, stop⟩ :=
        moving_halts (s := marked) levels waits rfl halts.1 halts.2 (ResumeProfile s h.stamp) (OriginAfter h.stamp)
      exact ⟨pgn, shuttle, from_, drive, seven, ⟨latched.1, latched.2⟩, stop⟩
    · exact prepareResume_prepared stop _ _ _ _

end Sys2Proof.ResumeFrames
end

section
/-! The READY that completes the barrier, at its observation (R41, R44, R46, R47, R49, R50, R140, R142). -/

set_option Elab.async false

namespace Sys2Proof.Releases

open Sys2Proof.Machine Sys2Proof.Safety Sys2Proof.Claims Sys2Proof.SectionLine Sys2Proof.StepTime Sys2Proof.MotionProfiles
  Sys2Proof.FixtureRelease Sys2Proof.FixtureReports Sys2Proof.SafetyCauses Sys2Proof.ReadyFrames Sys2Proof.ResumeRequest
  Sys2Proof.StopRamps Sys2Proof.Completions

variable {s t u w : State} {c d : Cause} {m : Nat} {own : Bool} {clock : FrameClock} {h : Header} {f : ReadyFields}

/-! The fixture opened in RELEASING (R47, R91). -/

/-- R91: the lift commanded raised. -/
def Lifting (v : Ssv) : Ssv := { v with lift := true, liftState := if v.liftState = .up then .up else .rising }

theorem raiseLift_lifting (v : Ssv) : v.raiseLift = Lifting v := by
  rw [raiseLift_eq]
  unfold Lifting
  by_cases up : v.liftState = .up
  · rw [if_pos (.inl up), if_pos up, up]
  · rw [if_neg up]
    split
    · rename_i rising
      rw [rising.resolve_left up]
    · rfl

/-- R47: LIFTED is due at once. -/
def LiftsAtOnce (u : State) : Prop := (Opens u).state = .open ∧ u.ssv.liftState = .up

theorem liftsAtOnce_cases (u : State) : LiftsAtOnce u ∨ ¬LiftsAtOnce u := Classical.em _

/-- R47, R91, Table 6-3: the fixture given the open command in RELEASING. -/
structure FixtureOpened (u r : State) : Prop where
  form : r = { u with fxs := Opens u, ssv := if (Opens u).state = .open then Lifting u.ssv else u.ssv, ixs := r.ixs, lpt := r.lpt }
  lifts : LiftsAtOnce u → r.ixs = { u.ixs with state := .liftWait } ∧ r.lpt = u.lpt.enqueue (.lifted u.ixs.index)
  stays : ¬LiftsAtOnce u → r.ixs = u.ixs ∧ r.lpt = u.lpt

theorem openFixture_releasing (state : u.ixs.state = .releasing) : FixtureOpened u u.openFixture := by
  rw [openFixture_eq]
  by_cases opened : (Opens u).state = .open
  · let r : State := { u with fxs := Opens u, ssv := Lifting u.ssv }
    have reported : ({ u with fxs := Opens u } : State).fixtureReported = r.liftReported := by
      rw [fixtureReported_lifts (s := { u with fxs := Opens u }) state opened]
      exact congrArg (fun v => State.liftReported { u with fxs := Opens u, ssv := v }) (raiseLift_lifting u.ssv)
    rw [reported]
    by_cases up : u.ssv.liftState = .up
    · have lifted : r.liftReported = { r with ixs := { u.ixs with state := .liftWait }, lpt := u.lpt.enqueue (.lifted u.ixs.index) } :=
        if_pos ⟨state, if_pos up⟩
      rw [lifted]
      exact ⟨by rw [if_pos opened], fun _ => ⟨rfl, rfl⟩, fun no => absurd ⟨opened, up⟩ no⟩
    · have waits : r.liftReported = r := if_neg fun yes => by
        have rising : r.ssv.liftState = .rising := if_neg up
        cases rising.symm.trans yes.2
      rw [waits]
      exact ⟨by rw [if_pos opened], fun yes => absurd yes.2 up, fun _ => ⟨rfl, rfl⟩⟩
  · have stays : ({ u with fxs := Opens u } : State).fixtureReported = { u with fxs := Opens u } := by
      refine fixtureReported_unawaited (fun _ => opened) fun waits => ?_
      rcases waits with ⟨e, -⟩ | ⟨e, -⟩ <;> cases state.symm.trans e
    rw [stays]
    exact ⟨by rw [if_neg opened], fun yes => absurd yes.1 opened, fun _ => ⟨rfl, rfl⟩⟩

/-! RELEASING entered (R41, R44, R46, R50). -/

/-- R41, R46, R49: the station in RELEASING, the last LOWERED indexes cleared. -/
def Released (w : State) : State :=
  { w with
    peers := w.peers.map fun p => { p with lastLowered := none }
    ixs := { w.ixs with liftBarrierTimer := some (Timeout w.items.liftBarrierTimeout), state := .releasing } }

/-- R50: STOP queued at an announced level of 6 or higher. -/
def StopDue (w : State) : State := if 6 ≤ w.har.announcedLevel then w.queueStop w.har.announcedCause else w

/-- R44: MACH_INTRUSION raised with MACH_CLEAR off. -/
def ClearTested (w : State) : State := if w.inputs.machClear = true then w else w.raise .machIntrusion

theorem enterReleasing_eq (w : State) : w.enterReleasing = (ClearTested (StopDue (Released w))).openFixture := by
  have released : Released w = ({ w.updatePeers (fun p => { p with lastLowered := none }) with
      ixs := { w.ixs with liftBarrierTimer := some (Config.timeout w.items.liftBarrierTimeout) } } : State).enter .releasing := by
    rw [timeout_eq]
    rfl
  rw [released]
  rfl

/-! What the causes of this frame leave (R139, R141, R149). -/

/-- The causes that the frame may raise. -/
def readyCauses : List Cause := [.imageMismatch, .machIntrusion]

/-- What queued STOPs and raised causes leave of the queue, the drive, the profile and the causes. -/
structure Carried (s t : State) : Prop where
  link : t.lpt = { s.lpt with queue := t.lpt.queue, withdrawHeld := t.lpt.withdrawHeld, nextId := t.lpt.nextId }
  queue : ∀ f : QueuedFrame, ofCauses f.payload = false → (f ∈ t.lpt.queue ↔ f ∈ s.lpt.queue)
  outer : Outer t.ssv = Outer s.ssv
  stopPosition : t.pgn.stopPosition = s.pgn.stopPosition
  base : t.pgn.base = s.pgn.base
  causes : SameCauses (· ∉ readyCauses) s.har t.har

theorem Carried.of_same (lpt : t.lpt = s.lpt) (ssv : t.ssv = s.ssv) (pgn : t.pgn = s.pgn) (har : t.har = s.har) : Carried s t := by
  refine ⟨by rw [lpt], fun _ _ => by rw [lpt], by rw [ssv], by rw [pgn], by rw [pgn], ?_⟩
  rw [har]
  exact .rfl' _ _

theorem Carried.of_moves (moves : HoldMoves s t) (causes : SameCauses (· ∉ readyCauses) s.har t.har) : Carried s t :=
  ⟨moves.link, moves.queue, moves_outer moves, moves.stopPosition, moves.base, causes⟩

theorem Carried.trans (a : Carried s t) (b : Carried t u) : Carried s u :=
  ⟨by rw [b.link, a.link], fun f own => (b.queue f own).trans (a.queue f own), b.outer.trans a.outer,
    b.stopPosition.trans a.stopPosition, b.base.trans a.base, a.causes.trans b.causes⟩

theorem raise_carried (s : State) (member : c ∈ readyCauses) : Carried s (s.raise c) :=
  .of_moves (raise_moves s c) ((raise_same s c).mono fun _ other e => other (e ▸ member))

theorem compared_carried (s : State) (m : Nat) (own : Bool) (f : ReadyFields) : Carried (ReadyTaken s m own f) (Compared s m own f) := by
  unfold Compared
  split
  · exact raise_carried _ (by decide)
  · exact .of_same rfl rfl rfl rfl

theorem stopDue_carried (w : State) : HoldFrame w (StopDue w) ∧ Carried w (StopDue w) ∧ (StopDue w).har = w.har := by
  unfold StopDue
  split
  · exact ⟨queueStop_frame _ _, .of_moves (queueFrame_moves w _ rfl nofun) (.rfl' _ _), rfl⟩
  · exact ⟨.rfl' _, .of_same rfl rfl rfl rfl, rfl⟩

theorem clearTested_carried (w : State) : HoldFrame w (ClearTested w) ∧ Carried w (ClearTested w) := by
  unfold ClearTested
  split
  · exact ⟨.rfl' _, .of_same rfl rfl rfl rfl⟩
  · exact ⟨raise_frame _ _, raise_carried _ (by decide)⟩

/-- R44, R46, R50: the station whose barrier is complete, before its fixture is given the open command. -/
def Barrier (s : State) (m : Nat) (own : Bool) (f : ReadyFields) : State := ClearTested (StopDue (Released (Compared s m own f)))

/-- R46: RELEASING entered from the state of the frame. -/
structure BarrierPassed (s : State) (m : Nat) (own : Bool) (f : ReadyFields) (u : State) : Prop where
  frame : HoldFrame (Released (Compared s m own f)) u
  ixs : u.ixs = { s.ixs with liftBarrierTimer := some (Timeout s.items.liftBarrierTimeout), state := .releasing }
  carried : Carried (ReadyTaken s m own f) u

theorem barrier_passed (s : State) (m : Nat) (own : Bool) (f : ReadyFields) : BarrierPassed s m own f (Barrier s m own f) := by
  let w := Compared s m own f
  have compared := compared_frame s m own f
  obtain ⟨stopFrame, stopCarried, -⟩ := stopDue_carried (Released w)
  obtain ⟨testFrame, testCarried⟩ := clearTested_carried (StopDue (Released w))
  have frame := stopFrame.trans testFrame
  have released : Carried w (Released w) := .of_same rfl rfl rfl rfl
  refine ⟨frame, ?_, (compared_carried s m own f).trans (released.trans (stopCarried.trans testCarried))⟩
  have stays : (Barrier s m own f).ixs = (Released w).ixs := frame.ixs.resolve_right fun ready => nomatch ready.1
  have items : w.items = s.items := compared.items
  rw [stays]
  unfold Released
  dsimp only
  rw [items]
  rcases compared.ixs with e | ⟨-, e⟩ <;> rw [e] <;> rfl

/-- R46: every mark is set, and every last LOWERED index cleared. -/
theorem marks_released {l : List Peer} (ready : ∀ (i : Nat) (p : Peer), l[i]? = some p → i ≠ m → p.ready = true) :
    (updateAt (fun p => { p with ready := true }) m l).map (fun p => { p with lastLowered := none })
      = l.map fun p => { p with ready := true, lastLowered := none } := by
  refine List.ext_getElem? fun i => ?_
  rw [List.getElem?_map, List.getElem?_map]
  by_cases same : i = m
  · rw [same, updateAt_self]
    cases l[m]? <;> rfl
  · rw [updateAt_other _ same]
    cases at_i : l[i]? with
    | none => rfl
    | some p =>
      have set := ready i p at_i same
      simp [← set]

/-! The frame to the end of its command. -/

/-- R47, R91: the fixture and the lift of the station whose barrier is complete. -/
theorem barrier_drive {r : State} (passed : BarrierPassed s m own f u) (opened : FixtureOpened u r) : r.fxs = Opens s
    ∧ (LiftsAtOnce u ↔ (Opens s).state = .open ∧ s.ssv.liftState = .up)
    ∧ Outer r.ssv = Outer (if (Opens s).state = .open then Lifting s.ssv else s.ssv) := by
  have compared := compared_frame s m own f
  have opens : Opens u = Opens s := by
    unfold Opens
    rw [show u.fxs = s.fxs from passed.frame.fxs.trans compared.fxs, show u.items = s.items from passed.frame.items.trans compared.items,
      show u.inputs = s.inputs from passed.frame.inputs.trans compared.inputs]
  have outer : Outer u.ssv = Outer s.ssv := passed.carried.outer
  refine ⟨by rw [opened.form]; exact opens, ?_, ?_⟩
  · unfold LiftsAtOnce
    rw [opens, (outer_lift outer).2]
  · rw [opened.form]
    dsimp only
    rw [opens]
    split
    · exact congrArg Lifting outer
    · exact outer

/-- R41, R46: the marks and the image of the station whose barrier is complete. -/
theorem barrier_peers (others : OthersMarked s m Peer.ready) (passed : BarrierPassed s m own f u) :
    u.peers = (Arrived s m own).peers.map fun p => { p with ready := true, lastLowered := none } := by
  have heard : ∀ (i : Nat) (p : Peer), (Arrived s m own).peers[i]? = some p → i ≠ m → p.ready = true := fun i p at_i other => by
    refine others i p ?_ other
    rw [← at_i]
    exact (updateAt_other _ other s.peers).symm
  rw [passed.frame.peers]
  exact (congrArg (List.map _) (compared_frame s m own f).peers).trans (marks_released heard)

/-- The blocks that the frame changes. -/
def releasedBlocks : List Block := .peers :: .fxs :: .sim :: causeBlocks

theorem released_onlyIn {r : State} (passed : BarrierPassed s m own f u) (opened : FixtureOpened u r) : OnlyIn releasedBlocks s r.close := by
  have sub : ∀ b ∈ causeBlocks, b ∈ releasedBlocks := fun b i =>
    List.mem_cons_of_mem _ (List.mem_cons_of_mem _ (List.mem_cons_of_mem _ i))
  have frames {x y : State} (frame : HoldFrame x y) : OnlyIn releasedBlocks x y := onlyIn_mono (onlyIn_of_holdFrame frame) sub
  have taken : OnlyIn releasedBlocks s (ReadyTaken s m own f) := by
    refine ⟨fun b n => ?_, rfl, rfl⟩
    cases b with
    | lpt | peers | sim => exact absurd (by decide) n
    | _ => rfl
  have released (w : State) : OnlyIn releasedBlocks w (Released w) := by
    refine ⟨fun b n => ?_, rfl, rfl⟩
    cases b with
    | peers | ixs => exact absurd (by decide) n
    | _ => rfl
  have fixture : OnlyIn releasedBlocks u r := by
    rw [opened.form]
    refine ⟨fun b n => ?_, rfl, rfl⟩
    cases b with
    | lpt | ixs | ssv | fxs => exact absurd (by decide) n
    | _ => rfl
  exact onlyIn_trans (onlyIn_trans (onlyIn_trans (onlyIn_trans (onlyIn_trans taken (frames (compared_frame s m own f))) (released _))
    (frames passed.frame)) fixture) (frames (close_frame r))

/-- R148: what the self-clearing causes are judged by stays but for the members. -/
theorem released_settled {r : State} (on : s.ixs.state ≠ .offline) (passed : BarrierPassed s m own f u) (opened : FixtureOpened u r)
    (settled : CausesSettled { s with peers := r.peers }) : CausesSettled r := fun c self => by
  have other : c ∉ readyCauses := fun member => by
    revert self
    simp only [readyCauses, List.mem_cons, List.not_mem_nil, or_false] at member
    rcases member with e | e <;> rw [e] <;> decide
  have har : r.har = u.har := by rw [opened.form]
  have compared := compared_frame s m own f
  have state : r.ixs.state ≠ .offline := by
    rcases liftsAtOnce_cases u with yes | no
    · rw [(opened.lifts yes).1]
      exact nofun
    · rw [(opened.stays no).1, passed.ixs]
      exact nofun
  have link : u.lpt.foreignTimer = s.lpt.foreignTimer := by
    rw [passed.carried.link]
    change (if own then _ else _ : Lpt).foreignTimer = _
    split <;> rfl
  have timer : r.lpt.foreignTimer = s.lpt.foreignTimer := by
    rcases liftsAtOnce_cases u with yes | no
    · rw [(opened.lifts yes).2]
      exact link
    · rw [(opened.stays no).2]
      exact link
  have judged := settled c self
  rw [har, passed.carried.causes.pending c other, passed.carried.causes.level c,
    condition_congr (s := { s with peers := r.peers }) (offline_congr on state) timer
      (by rw [opened.form]; exact passed.frame.items.trans compared.items)
      (by rw [opened.form]; exact congrArg Rst.status (passed.frame.rst.trans compared.rst))
      (by rw [opened.form]; exact congrArg Rst.exitQueue (passed.frame.rst.trans compared.rst))
      (by rw [opened.form]; exact passed.frame.ltu.trans compared.ltu) rfl self]
  exact judged

/-! The causes and the STOPs of the barrier (R44, R50, R139, R141). -/

/-- R152: a cause that comes up does not lower the announced level. -/
theorem raise_announced_le (every : EveryCause s) (announced : PairAnnounced s) (c : Cause) :
    s.har.announcedLevel ≤ (s.raise c).har.announcedLevel := by
  have same := raise_same s c
  have before : s.har.announcedLevel = s.har.pair.1 := congrArg Prod.fst announced
  have after : (s.raise c).har.announcedLevel = (s.raise c).har.pair.1 :=
    congrArg Prod.fst ((raise_effects s c every).announced announced)
  rw [before, after]
  rcases pair_cases every with none | ⟨d, pending, top⟩
  · rw [none]
    exact Nat.zero_le _
  · rw [top]
    have kept := level_le_pair (same.length.trans every) (raise_keepsPending s c pending)
    rwa [same.level d] at kept

/-- R94: a cause of a level below 7 leaves the drive and the profile. -/
theorem raise_lower_drive (lower : s.har.level c ≠ 7) : (s.raise c).ssv = s.ssv ∧ (s.raise c).pgn = s.pgn := by
  by_cases taken : s.offline ∨ s.har.level c = 0 ∨ s.har.isPending c
  · rw [raise_ignored s c taken]
    exact ⟨rfl, rfl⟩
  · obtain ⟨ssv, pgn⟩ := raise_drive taken
    rw [if_neg lower] at ssv pgn
    exact ⟨ssv, pgn⟩

/-- R50: the STOP that a cause of level 6 or 7 queues names it. -/
theorem raise_stop (taken : ¬(s.offline ∨ s.har.level c = 0 ∨ s.har.isPending c)) (high : 6 ≤ s.har.level c)
    (state : s.ixs.state = .releasing) : ∃ q ∈ (s.raise c).lpt.queue, ∃ lv : Nat, q.payload = .stop s.ixs.index c.number lv := by
  let u : State := { s with har := s.har.setPending c true }.announce
  have ixs : u.ixs = s.ixs := (announce_frame { s with har := s.har.setPending c true }).ixs.resolve_right fun ready => by
    cases state.symm.trans ready.1
  have raised : (s.raise c).lpt = (u.queueStop c.number).lpt := by
    have stops : 6 ≤ s.har.level c ∧ u.ixs.state.queuesStop = true := ⟨high, by rw [ixs, state]; rfl⟩
    have queued : (if 6 ≤ s.har.level c ∧ u.ixs.state.queuesStop = true then u.queueStop c.number else u) = u.queueStop c.number :=
      if_pos stops
    rw [raise_taken s c taken]
    dsimp only
    rw [queued]
    split
    · exact dropDrive_lpt _
    · rfl
  rw [raised]
  exact ⟨_, mem_insertFrame_self _ _, u.har.announcedLevel, by rw [← ixs]; rfl⟩

theorem compared_level (every : EveryCause s) (announced : PairAnnounced s) :
    s.har.announcedLevel ≤ (Compared s m own f).har.announcedLevel := by
  unfold Compared
  split
  · exact raise_announced_le (s := ReadyTaken s m own f) every announced _
  · exact Nat.le_refl _

/-- R50: STOP waits at an announced level of 6 or higher. -/
theorem barrier_stop (every : EveryCause s) (announced : PairAnnounced s) (high : 6 ≤ s.har.announcedLevel) :
    StopWaits (Barrier s m own f) := by
  let x := Released (Compared s m own f)
  have due : 6 ≤ x.har.announcedLevel := high.trans (compared_level every announced)
  have queued : StopWaits (StopDue x) := by
    rw [show StopDue x = x.queueStop x.har.announcedCause from if_pos due]
    exact ⟨_, mem_insertFrame_self _ _, _, _, rfl⟩
  change StopWaits (ClearTested (StopDue x))
  unfold ClearTested
  split
  · exact queued
  · exact stopWaits_stable.raise _ queued

/-- R9: the LIFTED that is queued leaves the STOP. -/
theorem opened_frame {r : State} (opened : FixtureOpened u r) {q : QueuedFrame} (kind : q.payload.kind ≠ .lifted) :
    q ∈ r.lpt.queue ↔ q ∈ u.lpt.queue := by
  rcases liftsAtOnce_cases u with yes | no
  · rw [(opened.lifts yes).2]
    exact mem_enqueue_other kind
  · rw [(opened.stays no).2]

theorem opened_stop {r : State} (opened : FixtureOpened u r) (waits : StopWaits u) : StopWaits r := by
  obtain ⟨q, queued, k, lv, payload⟩ := waits
  refine ⟨q, (opened_frame opened (by rw [payload]; exact nofun)).2 queued, k, lv, ?_⟩
  rcases liftsAtOnce_cases u with yes | no
  · rw [(opened.lifts yes).1]
    exact payload
  · rw [(opened.stays no).1]
    exact payload

theorem opened_link {r : State} (opened : FixtureOpened u r) (carried : Carried s u) :
    r.lpt = { s.lpt with queue := r.lpt.queue, withdrawHeld := r.lpt.withdrawHeld, nextId := r.lpt.nextId } := by
  rcases liftsAtOnce_cases u with yes | no
  · rw [(opened.lifts yes).2, carried.link]
    rfl
  · rw [(opened.stays no).2]
    exact carried.link

/-- R6: a frame observed leaves the transmit queue. -/
theorem arrived_queue (q : QueuedFrame) : q ∈ (Arrived s m own).lpt.queue ↔ q ∈ s.lpt.queue := by
  unfold Arrived
  dsimp only
  split <;> exact Iff.rfl

theorem opened_ixs {r : State} (opened : FixtureOpened u r) [Decidable (LiftsAtOnce u)] (state : u.ixs.state = .releasing) :
    r.ixs = { u.ixs with state := if LiftsAtOnce u then .liftWait else .releasing } := by
  split
  · exact (opened.lifts ‹_›).1
  · rw [(opened.stays ‹_›).1, ← state]

/-- R139, R141: IMAGE_MISMATCH once the barrier is complete. -/
theorem barrier_mismatch : (Barrier s m own f).har.isPending .imageMismatch = (Compared s m own f).har.isPending .imageMismatch := by
  have due := (stopDue_carried (Released (Compared s m own f))).2.2
  change (ClearTested (StopDue (Released (Compared s m own f)))).har.isPending .imageMismatch = _
  unfold ClearTested
  split
  · rw [due]
    rfl
  · rw [(raise_same _ .machIntrusion).pending .imageMismatch (by decide), due]
    rfl

/-- R44: MACH_INTRUSION with MACH_CLEAR off. -/
theorem barrier_intrusion (levels : LevelsLegal s) (off : s.inputs.machClear = false) :
    (Barrier s m own f).har.isPending .machIntrusion = true
      ∧ (s.har.isPending .machIntrusion = false →
        ∃ q ∈ (Barrier s m own f).lpt.queue, ∃ lv : Nat, q.payload = .stop s.ixs.index 17 lv) := by
  let x := StopDue (Released (Compared s m own f))
  obtain ⟨frame, carried, har⟩ := stopDue_carried (Released (Compared s m own f))
  have compared := compared_frame s m own f
  have causes : SameCauses (· ≠ .imageMismatch) s.har x.har := by
    rw [show x.har = (Compared s m own f).har from har]
    unfold Compared
    split
    · exact raise_same (ReadyTaken s m own f) .imageMismatch
    · exact .rfl' _ _
  have levels' : LevelsLegal x := levelsLegal_same causes levels
  have ixs : x.ixs = (Released (Compared s m own f)).ixs := frame.ixs.resolve_right fun ready => nomatch ready.1
  have state : x.ixs.state = .releasing := by rw [ixs]; rfl
  have kept : (Compared s m own f).ixs.index = (ReadyTaken s m own f).ixs.index := index_of_holdFrame compared
  have index : x.ixs.index = s.ixs.index := (congrArg Ixs.index ixs).trans kept
  have inputs : x.inputs = s.inputs := frame.inputs.trans compared.inputs
  have on : x.offline = false := beq_eq_false_iff_ne.2 (by rw [state]; exact nofun)
  have raised : Barrier s m own f = x.raise .machIntrusion := if_neg (by rw [show _ = s.inputs from inputs, off]; exact nofun)
  have high : 6 ≤ x.har.level .machIntrusion := (levels'.2 .machIntrusion).1
  rw [raised]
  refine ⟨raise_pending x .machIntrusion on (by omega) levels'.1, fun idle => ?_⟩
  have taken : ¬(x.offline ∨ x.har.level .machIntrusion = 0 ∨ x.har.isPending .machIntrusion) := by
    rw [on, (causes.pending .machIntrusion (by decide)).trans idle]
    rintro (⟨⟨⟩⟩ | zero | ⟨⟨⟩⟩)
    omega
  rw [← index]
  exact raise_stop taken high state

/-- R94: with both causes of a level below 7 the drive and the profile stay. -/
theorem barrier_lower (image : s.har.level .imageMismatch ≠ 7) (intrusion : s.har.level .machIntrusion ≠ 7) :
    (Barrier s m own f).ssv = s.ssv ∧ (Barrier s m own f).pgn = s.pgn := by
  have compared : (Compared s m own f).ssv = s.ssv ∧ (Compared s m own f).pgn = s.pgn := by
    unfold Compared
    split
    · exact raise_lower_drive (s := ReadyTaken s m own f) image
    · exact ⟨rfl, rfl⟩
  let x := StopDue (Released (Compared s m own f))
  have due : x.ssv = (Compared s m own f).ssv ∧ x.pgn = (Compared s m own f).pgn := by
    unfold x StopDue
    split <;> exact ⟨rfl, rfl⟩
  have level : x.har.level .machIntrusion ≠ 7 := by
    rw [(stopDue_carried (Released (Compared s m own f))).2.2]
    change (Compared s m own f).har.level .machIntrusion ≠ 7
    rw [(compared_carried s m own f).causes.level]
    exact intrusion
  rw [← compared.1, ← compared.2, ← due.1, ← due.2]
  change (ClearTested x).ssv = x.ssv ∧ (ClearTested x).pgn = x.pgn
  unfold ClearTested
  split
  · exact ⟨rfl, rfl⟩
  · exact raise_lower_drive level

/-- What the drive keeps, field by field. -/
theorem outer_ssv {v w : Ssv} (h : Outer v = Outer w) : v = { w with
    shuttle := v.shuttle, haltedFrom := v.haltedFrom, drive := v.drive, repositionTarget := v.repositionTarget
    repositionUse := v.repositionUse, homingTimer := v.homingTimer, homeCheckTimer := v.homeCheckTimer, homeCheck := v.homeCheck
    homingStage := v.homingStage } :=
  congrArg (fun o : Ssv => { o with
    shuttle := v.shuttle, haltedFrom := v.haltedFrom, drive := v.drive, repositionTarget := v.repositionTarget
    repositionUse := v.repositionUse, homingTimer := v.homingTimer, homeCheckTimer := v.homeCheckTimer, homeCheck := v.homeCheck
    homingStage := v.homingStage }) h

/-- R139, R141: no contradiction leaves the frame as it is. -/
theorem compared_calm (calm : ∀ old, s.sim.slots[m]? = some old → ¬Contradicts m f old) : Compared s m own f = ReadyTaken s m own f := by
  cases at_m : s.sim.slots[m]? with
  | some old => exact compared_agrees at_m (calm old at_m)
  | none =>
    have unknown : s.sim.slots.getD m .unknown = .unknown := by rw [List.getD_eq_getElem?_getD, at_m]; rfl
    exact if_neg (by rw [unknown]; exact nofun)

/-- R44, R50: with no contradiction and MACH_CLEAR on no cause comes up. -/
theorem barrier_calm (calm : ∀ old, s.sim.slots[m]? = some old → ¬Contradicts m f old) (clear : s.inputs.machClear = true) :
    Barrier s m own f = { Released (ReadyTaken s m own f) with
      lpt := if 6 ≤ s.har.announcedLevel then
        (Arrived s m own).lpt.enqueue (.stop s.ixs.index s.har.announcedCause s.har.announcedLevel) else (Arrived s m own).lpt } := by
  have due : StopDue (Released (ReadyTaken s m own f)) = { Released (ReadyTaken s m own f) with
      lpt := if 6 ≤ s.har.announcedLevel then
        (Arrived s m own).lpt.enqueue (.stop s.ixs.index s.har.announcedCause s.har.announcedLevel) else (Arrived s m own).lpt } := by
    by_cases high : 6 ≤ s.har.announcedLevel
    · rw [if_pos high]
      exact if_pos high
    · rw [if_neg high]
      exact if_neg high
  rw [Barrier, compared_calm calm, due]
  exact if_pos clear

/-- R50: the lines of causes and profile that a calm barrier leaves. -/
theorem released_calm {r : State} (opened : FixtureOpened (Barrier s m own f) r)
    (calm : ∀ old, s.sim.slots[m]? = some old → ¬Contradicts m f old) (clear : s.inputs.machClear = true) :
    r = { Arrived s m own with peers := r.peers, fxs := r.fxs, sim := r.sim, ssv := r.ssv, ixs := r.ixs, lpt := r.lpt } := by
  have form := opened.form
  rw [barrier_calm calm clear] at form
  rw [form]
  rfl

/-- Settles O27: the barrier (`barrier_passed`, `barrier_stop`, `barrier_intrusion`), the fixture opened in it (`openFixture_releasing`), and
what the end of the command leaves of both. -/
theorem readyBarrierReleases : Obligations.ReadyBarrierReleases := by
  classical
  intro s h f m own clock arrives index waits levels announced others fx g new a v stop
  have on : s.ixs.state ≠ .offline := arrives.2.2.2.1
  have passed := barrier_passed s m own f
  have releasing : (Barrier s m own f).ixs.state = .releasing := by rw [passed.ixs]
  have opened := openFixture_releasing releasing
  have delivered : a.deliver ⟨m, own, clock⟩ ⟨h, .ready f⟩ = (Barrier s m own f).openFixture := by
    rw [deliverReady_eq index, State.checkReadyBarrier, if_pos ((barrier_iff s m own f).2 ⟨waits, others⟩), enterReleasing_eq]
    rfl
  rw [show exec (.readyObserved h f) s = .next (Barrier s m own f).openFixture.close from
    congrArg Host.Outcome.next ((observe_arrives arrives).trans (congrArg State.close delivered))]
  generalize (Barrier s m own f).openFixture = r at opened
  obtain ⟨fixture, atOnce, outer⟩ := barrier_drive passed opened
  have frame := close_frame r
  have har : r.har = (Barrier s m own f).har := by rw [opened.form]
  have closed := close_same r
  have follows := close_follows r
  have peers : r.close.peers = a.peers.map fun p => { p with ready := true, lastLowered := none } := by
    rw [frame.peers, congrArg State.peers opened.form]
    exact barrier_peers (u := Barrier s m own f) others passed
  have sim : r.close.sim = s.sim.write m (slotOf f) := by
    rw [frame.sim, congrArg State.sim opened.form]
    exact passed.frame.sim.trans (compared_frame s m own f).sim
  refine ⟨_, rfl, released_onlyIn passed opened, ?_, peers, frame.fxs.trans fixture, fun clear calm => ?_, ?_, fun q ours kind => ?_, ?_, ?_, ?_,
    fun image intrusion settled => ?_, fun old at_m => ⟨?_, fun contradicts => ?_, fun agrees => ?_⟩, fun i other => ?_, ?_, ?_,
    fun high => ?_, fun off => ⟨?_, fun idle settled => ?_⟩, fun isOpen up => ?_⟩
  · refine ⟨fun c => (closed.level c).trans ?_, fun c latched other => (closed.pending c latched).trans ?_⟩
    · rw [har]
      exact passed.carried.causes.level c
    · rw [har]
      exact passed.carried.causes.pending c other
  · rw [show ({ a with
        peers := a.peers.map fun p => { p with ready := true, lastLowered := none }
        fxs := fx, sim := r.close.sim, ssv := v
        ixs := { s.ixs with
          liftBarrierTimer := some (Timeout s.items.liftBarrierTimeout)
          state := if fx.state = .open ∧ s.ssv.liftState = .up then .liftWait else .releasing }
        lpt := if fx.state = .open ∧ s.ssv.liftState = .up then stop.enqueue (.lifted s.ixs.index) else stop } : State) = r from ?_]
    · exact close_leads r
    · have calmly := barrier_calm (own := own) calm clear
      have opens : Opens (Barrier s m own f) = Opens s := (congrArg State.fxs opened.form).symm.trans fixture
      have ssv : r.ssv = v := by
        rw [congrArg State.ssv opened.form]
        dsimp only
        rw [opens, congrArg State.ssv calmly]
        rfl
      have queued : (Barrier s m own f).lpt = stop := congrArg State.lpt calmly
      have lpt : r.lpt = if fx.state = .open ∧ s.ssv.liftState = .up then stop.enqueue (.lifted s.ixs.index) else stop := by
        split
        · rw [(opened.lifts (atOnce.2 ‹_›)).2, queued, passed.ixs]
        · rw [(opened.stays (mt atOnce.1 ‹_›)).2, queued]
      have ixs : r.ixs = { s.ixs with
          liftBarrierTimer := some (Timeout s.items.liftBarrierTimeout)
          state := if fx.state = .open ∧ s.ssv.liftState = .up then .liftWait else .releasing } := by
        rw [opened_ixs opened releasing, passed.ixs]
        simp only [atOnce]
        rfl
      have marked := frame.peers.symm.trans peers
      refine Eq.trans ?_ (released_calm opened calm clear).symm
      rw [← marked, ← ssv, ← lpt, ← ixs, frame.sim, show fx = r.fxs from fixture.symm]
  · refine follows.link.trans ?_
    have link : r.lpt = { a.lpt with queue := r.lpt.queue, withdrawHeld := r.lpt.withdrawHeld, nextId := r.lpt.nextId } :=
      opened_link (s := ReadyTaken s m own f) opened passed.carried
    rw [link]
  · rw [follows.queue q ours, opened_frame opened kind]
    exact (passed.carried.queue q ours).trans (arrived_queue (m := m) (own := own) q)
  · exact outer_ssv ((close_outer r).trans outer)
  · rw [follows.stopPosition, congrArg State.pgn opened.form]
    exact passed.carried.stopPosition
  · rw [follows.base, congrArg State.pgn opened.form]
    exact passed.carried.base
  · obtain ⟨ssv, pgn⟩ := close_settled_drive (released_settled on passed opened (by rw [← frame.peers]; exact settled))
    obtain ⟨lowSsv, lowPgn⟩ := barrier_lower (m := m) (own := own) (f := f) image intrusion
    rw [ssv, pgn, opened.form]
    refine ⟨?_, lowPgn⟩
    have opens : Opens (Barrier s m own f) = Opens s := (congrArg State.fxs opened.form).symm.trans fixture
    dsimp only
    rw [opens, lowSsv]
    rfl
  · rw [sim]
    exact write_own at_m
  · rw [closed.pending _ rfl, har, barrier_mismatch, compared_contradicts at_m contradicts]
    exact raise_pending (ReadyTaken s m own f) _ (beq_eq_false_iff_ne.2 on) (level_pos (s := s) levels (by decide)) levels.1
  · rw [closed.pending _ rfl, har, barrier_mismatch, compared_agrees at_m agrees]
    rfl
  · rw [sim]
    exact write_others s.sim other
  · rw [sim]
    exact (write_slots s.sim m f).2
  · rw [close_ixs (by rw [opened_ixs opened releasing]; dsimp only; split <;> exact nofun), opened_ixs opened releasing, passed.ixs]
    simp only [atOnce]
    rfl
  · obtain ⟨q, queued, k, lv, payload⟩ := stopWaits_stable.close (opened_stop opened (barrier_stop levels.1 announced high))
    exact ⟨q, queued, by rw [payload]; rfl⟩
  · rw [closed.pending _ rfl, har]
    exact (barrier_intrusion levels off).1
  · obtain ⟨q, queued, lv, payload⟩ := (barrier_intrusion (m := m) (own := own) (f := f) levels off).2 idle
    rw [close_settled r (released_settled on passed opened (by rw [← frame.peers]; exact settled))]
    exact ⟨q, (opened_frame opened (by rw [payload]; exact nofun)).2 queued, lv, payload⟩
  · have lifted := (opened.lifts (atOnce.2 ⟨isOpen, up⟩)).2
    refine ⟨⟨(Barrier s m own f).lpt.nextId, .lifted s.ixs.index⟩, (follows.queue _ rfl).2 ?_, rfl⟩
    rw [lifted, passed.ixs]
    exact mem_insertFrame_self _ _

end Sys2Proof.Releases
end
